-- ==== Sys2Proof/Word.lean ====
section
/-! DEFINITION. The word types of the SKW5 (R4, R5) and nothing more than their plainest uses. -/

namespace Sys2Proof

/-- A byte (R5). -/
abbrev Byte := BitVec 8

/-- A 32-bit word: a vector lane, a scratchpad word, a tile word (R58, R61, R75). -/
abbrev Word32 := BitVec 32

/-- A 64-bit word: a scalar register or a BAR0 register (R58, R316). -/
abbrev Word64 := BitVec 64

/-- A 64-bit word from its value. -/
def w64 (n : Nat) : Word64 := BitVec.ofNat 64 n

/-- A 32-bit word from its value. -/
def w32 (n : Nat) : Word32 := BitVec.ofNat 32 n

end Sys2Proof
end

