-- ==== Sys2Proof/Syntax.lean ====
section
/-! DEFINITION. The commands of the SKW5: operand types and the one inductive Instr, one constructor per row of
the opcode table. An instruction of Yiltil is a command too: thread t of a core issues it, with the fields of its
64-bit word (R191). The other rows are steps of the wafer's own engines or inputs from outside. -/

namespace Sys2Proof

/-- A vat, 0 to 63 (R257). -/
abbrev VatId := Fin 64
/-- A region, 0 to 191 (R12). -/
abbrev Region := Fin 192
/-- A queue pair, 0 to 4,095 (R265). -/
abbrev QueueId := Fin 4096
/-- A stream number of a vat, 0 to 1,023 (R267). -/
abbrev StreamId := Fin 1024
/-- A device link, 0 to 35 (R282). -/
abbrev LinkId := Fin 36
/-- A virtual counter id, 0 to 4,095 (R171). -/
abbrev Vid := Fin 4096
/-- A converter group, 0 to 95 (R369). -/
abbrev Group := Fin 96

/-- A half of the wafer (R16). -/
inductive Half where
  | north | south
  deriving DecidableEq, Repr

/-- A host port (R315). -/
inductive HostPort where
  | east | west
  deriving DecidableEq, Repr

/-- A logical core ⟨lx, ly⟩ (R10, R13). -/
structure CoreId where
  lx : Fin 496
  ly : Fin 384
  deriving DecidableEq, Repr

/-- A physical position, the place of a router (R10, R143). -/
structure RouterId where
  px : Fin 512
  py : Fin 384
  deriving DecidableEq, Repr

/-- A hardware thread of a core (R58). -/
structure Site where
  core : CoreId
  thread : Fin 16
  deriving DecidableEq, Repr

/-- Format A, scalar (R191). -/
structure FmtA where
  d : BitVec 5 := 0
  a : BitVec 5 := 0
  b : BitVec 5 := 0
  i : BitVec 1 := 0
  func : BitVec 8 := 0
  imm : BitVec 32 := 0
  deriving DecidableEq, Repr

/-- Format B, branch and control (R191). -/
structure FmtB where
  a : BitVec 5 := 0
  b : BitVec 5 := 0
  cond : BitVec 3 := 0
  thread : BitVec 4 := 0
  rsv : BitVec 7 := 0
  target : BitVec 32 := 0
  deriving DecidableEq, Repr

/-- Format M, memory (R191). -/
structure FmtM where
  d : BitVec 5 := 0
  base : BitVec 5 := 0
  width : BitVec 2 := 0
  acc : BitVec 2 := 0
  sign : BitVec 1 := 0
  rsv1 : BitVec 1 := 0
  offset : BitVec 24 := 0
  rsv2 : BitVec 16 := 0
  deriving DecidableEq, Repr

/-- Format V, vector (R191). -/
structure FmtV where
  vd : BitVec 3 := 0
  va : BitVec 3 := 0
  vb : BitVec 3 := 0
  vc : BitVec 3 := 0
  fmt : BitVec 4 := 0
  s : BitVec 5 := 0
  sb : BitVec 1 := 0
  rsv1 : BitVec 2 := 0
  func : BitVec 16 := 0
  rsv2 : BitVec 16 := 0
  deriving DecidableEq, Repr

/-- Format T, tile (R191). -/
structure FmtT where
  line : BitVec 12 := 0
  count : BitVec 12 := 0
  wfmt : BitVec 4 := 0
  afmt : BitVec 4 := 0
  cls : BitVec 1 := 0
  buf : BitVec 1 := 0
  tok : BitVec 2 := 0
  tile : BitVec 1 := 0
  feat : BitVec 10 := 0
  src : BitVec 4 := 0
  span : BitVec 5 := 0
  deriving DecidableEq, Repr

/-- Format X, transfer (R191). -/
structure FmtX where
  dst : BitVec 5 := 0
  src : BitVec 5 := 0
  len : BitVec 5 := 0
  cls : BitVec 3 := 0
  vc : BitVec 1 := 0
  opw : BitVec 2 := 0
  mc : BitVec 1 := 0
  mdir : BitVec 2 := 0
  mspan : BitVec 9 := 0
  flow : BitVec 8 := 0
  rot : BitVec 1 := 0
  rsv : BitVec 14 := 0
  deriving DecidableEq, Repr

/-- Format W, wait and signal (R191). -/
structure FmtW where
  vid : BitVec 12 := 0
  s : BitVec 5 := 0
  rsv1 : BitVec 7 := 0
  value : BitVec 16 := 0
  rsv2 : BitVec 16 := 0
  deriving DecidableEq, Repr

/-- The status names of R333. -/
inductive Status where
  | ok | illegal | format | counter | empty | oversize | address | protect
  | eccfatal | vatfault | slip | timeout
  | length | cancelled | variant | reset | badentry | nostream | nospace
  | headroom | wrap | tb2Invalid | scaleNan
  deriving DecidableEq, Repr

/-- The registers of a vat's window (R319). -/
inductive VatReg where
  | vatCtrl | vatStatus | vatCommit | vatBeat | vatSlip
  | vatRegions (w : Fin 3)
  | vatLadle | vatLend | vatPrefill | vatPressBase | vatPrefillStat | vatIrq
  | vatFault (w : Fin 2)
  | meshCommit | meshStatus
  | kvConf | kvLimit | kvQkScale | kvListbase | kvSkimbase | kvRot
  | linkStackwin | linkTimeout | linkChain
  | kvStage (n : Fin 256)
  | kvRotFreq (i : Fin 128)
  | linkPeer (e : Fin 16)
  | recipeSummary (m : Fin 64)
  | kvSeq (n : StreamId)
  | syncMap (i : Vid)
  | ctr (i : Vid) (w : Fin 2)
  | recipe (n : Fin 4096) (w : Fin 2)
  deriving DecidableEq, Repr

/-- Every register of BAR0 (R318). -/
inductive Reg where
  | glbId | glbIrq | glbEventWr
  | glbEvent (e : Fin 256) (w : Fin 2)
  | glbPress (n : Fin 96)
  | glbStack (n : Fin 24)
  | stackShare (s : Fin 24) (w : Fin 8)
  | pcieShare (p : Fin 2) (w : Fin 8)
  | tickPeriod | tickCommit | tickCount
  | tickLead (n : Region)
  | meshRegionStat (n : Region)
  | meshSeam (n : Fin 16)
  | meshShare (p : Fin 176) (w : Fin 8)
  | linkId | twinCtrl | twinCmdMask | twinOwner | twinStatus
  | linkCtrl (l : LinkId) | linkStatus (l : LinkId) | linkStat (l : LinkId)
  | linkRoute (i : Fin 256) (w : Fin 2)
  | linkShare (l : LinkId) (w : Fin 8)
  | que (n : QueueId)
  | queSq (n : QueueId) (w : Fin 2)
  | queCq (n : QueueId) (w : Fin 2)
  | ladleQStat (n : QueueId)
  | ladleCust (c : Fin 4096) (w : Fin 2)
  | ladleVariant (v : Fin 4096) (w : Fin 2)
  | thermRegion (n : Region)
  | thermCtrl | thermStatus
  | thermWarm (w : Fin 3)
  | thermVat (v : VatId)
  | pwrState | pwrCtrl
  | pwrWake (h : Fin 2)
  | pwrMap
  | pwrRegion (n : Region)
  | pwrGroup (g : Group)
  | pwrDefect (i : Fin 6144)
  | assayStatus | assayPolicy
  | vat (v : VatId) (r : VatReg)
  deriving DecidableEq, Repr

/-- A shared port with a deficit round robin scheduler (R160, R252, R295, R319). -/
inductive SharedPort where
  | mesh (p : Fin 176)
  | stack (s : Fin 24)
  | link (l : LinkId)
  | pcie (p : HostPort)
  deriving DecidableEq, Repr

/-- A stream's mirrored identity (R301 STREAM), with what its completions and its end need beside what R301 lists (log entry 20). -/
structure MirrorStream where
  stream : StreamId
  cmdId : BitVec 16
  maxNew : Nat
  stops : List Word32
  queue : QueueId
  cust : Fin 4096
  limit : Nat
  variant : BitVec 16
  topK : Nat
  invTemp : Word32
  topP : Word32
  seed : Word64
  newTokens : Nat := 0
  lastToken : Word32 := 0
  announced : Bool := false
  deriving DecidableEq, Repr

/-- A mirrored commit (R301 COMMIT). -/
structure MirrorCommit where
  stream : StreamId
  lc : Nat
  tokens : List Word32
  tick : Nat
  kvCount : Nat
  deriving DecidableEq, Repr

/-- What one packet of type MIRROR or TWIN carries (R301, R303, R305), and a commit report that a chained module sends back (R307). How the
contents are laid out in the payload the spec leaves open (log entry 92). -/
inductive LinkRecord where
  | stream (v : VatId) (m : MirrorStream)
  | kv (v : VatId) (st : StreamId) (stage pos head : Nat) (bytes : List Byte)
  | commit (v : VatId) (m : MirrorCommit)
  | fill (v : VatId) (pail : Nat) (streams : List StreamId)
  | ladle (v : VatId) (cursor : Nat) (credits : List (QueueId × Nat)) (balances : List (Fin 4096 × Word32))
      (entries : List (QueueId × List Byte × Nat))
  | ended (v : VatId) (st : StreamId) (status : Status)
  | commitAck (v : VatId) (st : StreamId) (lc : Nat)
  | fail (mask : Word64)
  | handover (mask : Word64)
  | report (v : VatId) (st : StreamId) (sampled : List Word32) (tick : Nat)
  deriving DecidableEq, Repr

/-- A link packet: the header of R287 and its payload. -/
structure Packet where
  ty : BitVec 8 := 0
  last : Bool := false
  signal : Bool := false
  reroute : Bool := false
  srcDev : BitVec 16 := 0
  dstDev : BitVec 16 := 0
  srcVat : VatId := 0
  dstVat : VatId := 0
  length : BitVec 16 := 0
  tag : BitVec 16 := 0
  lseq : BitVec 16 := 0
  origLink : BitVec 8 := 0
  status : BitVec 8 := 0
  addr : BitVec 64 := 0
  sigVid : BitVec 12 := 0
  sigVal : BitVec 16 := 0
  data : List Byte := []
  /-- MIRROR, TWIN and a commit report sent back along a chain: the contents, in place of data. -/
  record : Option LinkRecord := none
  deriving DecidableEq, Repr

/-- What one control cell carries (R286, R308): the cumulative acknowledgement, the replay request, returned credits, lane state (bit i:
lane i is in use), the sender's tick period as tick-rate reference, and the identity exchanged at training. How they are laid out in the
frame the spec leaves open. -/
structure ControlInfo where
  ack : Option (BitVec 16) := none
  replay : Option (BitVec 16) := none
  credits : Nat := 0
  lanes : BitVec 18 := 0xFFFF
  peerPeriod : BitVec 16 := 0
  dev : BitVec 16 := 0
  link : BitVec 6 := 0
  role : BitVec 2 := 0
  deriving DecidableEq, Repr

/-- A lane and why it is to retire (R285): it lost lock, or it reported so many uncorrectable FEC codewords within a window of 1 ms. -/
inductive LaneCause where
  | lockLost (lane : Fin 18)
  | codewords (lane : Fin 18) (n : Nat)
  deriving DecidableEq, Repr

/-- The kind of a ring stage (R38). -/
inductive StageKind where
  | layer | crossing | head
  deriving DecidableEq, Repr

/-- What an ingot records of one MAC instruction of a core for its variants: its COUNT, WFMT and AFMT, which give F, K and W (R216, R218,
R277). -/
structure MacShape where
  count : BitVec 12 := 0
  wfmt : BitVec 4 := 0
  afmt : BitVec 4 := 0
  deriving DecidableEq, Repr

/-- What an ingot records of one core for its variants: the solder staging area in bytes, and its MAC instructions per beat (R276). -/
structure SolderShape where
  area : Nat := 0
  macs : List MacShape := []
  deriving DecidableEq, Repr

/-- A weight-bus sweep that an ingot records (R69, R70): the sender, the direction of the span (0 north, 1 east, 2 south, 3 west) and its
count, the lines swept, and each receiver with the place of its MAC instruction. -/
structure SpanShape where
  sender : CoreId := ⟨0, 0⟩
  dir : Fin 4 := 0
  count : Nat := 1
  line : Nat := 0
  lines : Nat := 1
  receivers : List (CoreId × Fin 2048) := []
  deriving DecidableEq, Repr

/-- One stage of an ingot's ring: its cores, its KV_STAGE entry when it bears KV, the highest weight boundary of its members (R38, R117),
its weight-bus sweeps (R70), and the shapes of its cores for
variants (R276). -/
structure StageInfo where
  kind : StageKind := .layer
  cores : List CoreId := []
  kvStage : Option Word64 := none
  maxWb : Nat := 0
  spans : List SpanShape := []
  solder : List SolderShape := []
  deriving DecidableEq, Repr

/-- A word of an ingot's relocation list (R188): 32 bits of a core's memory, or the immediate of an instruction. -/
inductive RelocWord where
  | data (c : CoreId) (addr : Nat)
  | code (c : CoreId) (idx : Fin 2048)
  deriving DecidableEq, Repr

/-- An ingot's segment table, with what the loader reads from it (R183, R188, R356 to R358). -/
structure IngotTable where
  major : Nat := 1
  minor : Nat := 2
  /-- The size parameters assumed, in the order of R182. -/
  sizes : List Nat := []
  /-- The exact parameters assumed, in the order of R182. -/
  exacts : List Nat := []
  isStatic : Bool := false
  relocatable : Bool := false
  /-- The shift in region columns and rows, when placed shifted. -/
  dc : Int := 0
  dr : Int := 0
  regions : List Region := []
  hallmarked : Bool := false
  segments : Nat := 1
  stages : List StageInfo := []
  kvConf : Word64 := 0
  kMinus1 : BitVec 4 := 0
  slipLimit : BitVec 8 := 64
  periodNs : Nat := 1000
  pailPos : Nat := 4096
  maxGroup : Nat := 1200
  vocab : Nat := 0
  /-- Every layer matrix is MXFP4, so the ingot has a press copy (R238). -/
  pressCopy : Bool := false
  /-- Routes of the placement cross the seam (R20). -/
  crossesSeam : Bool := false
  digest : Nat := 0
  /-- Where the header core of the first layer stage takes a pail's header (R123): core and byte address. -/
  headerAt : Option (CoreId × Nat) := none
  /-- The stack ranges of the embedding table and the overflow layers: base and bytes (R250, R255). -/
  tables : List (Nat × Nat) := []
  /-- The relocation list (R188): the words that hold a core's logical coordinates. -/
  reloc : List RelocWord := []
  deriving DecidableEq, Repr

/-- One thing the rim load engine writes from a segment (R356, R358). -/
inductive SegItem where
  /-- Bytes of a core's local address space (weights, scratchpad data, control words). -/
  | mem (c : CoreId) (addr : Nat) (bytes : List Byte)
  /-- One instruction of a core's instruction store (R185). -/
  | imem (c : CoreId) (idx : Fin 2048) (w : Word64)
  /-- A core's weight boundary (R26). -/
  | wb (c : CoreId) (wb : Nat)
  /-- A route table entry's shadow (R147). -/
  | route (r : RouterId) (i : Fin 16) (w : Word64)
  /-- A slot table entry's shadow (R150). -/
  | slot (r : RouterId) (out : Fin 5) (e : Fin 256) (w : BitVec 16)
  /-- A counter or KV register of the vat (R142, R181). -/
  | reg (r : VatReg) (w : Word64)
  /-- DUTY and REQ_STEP of a region (R350). -/
  | duty (r : Region) (duty : BitVec 6) (reqStep : BitVec 4)
  /-- A region's lead (R48). -/
  | lead (r : Region) (ns : BitVec 6)
  /-- Bytes of the memory stacks (R250). -/
  | stack (addr : Nat) (bytes : List Byte)
  /-- A press's slice of the press copy, from VAT_PRESS_BASE in its site's window, and how many bytes of its tail are pinned (R241,
  R245). -/
  | press (n : Fin 96) (bytes : List Byte) (pinned : Nat)
  /-- Bytes of the ingot itself, from an offset, which are passed on down the tree of a multi-module load (R311). -/
  | raw (off : Nat) (bytes : List Byte)
  deriving DecidableEq, Repr

/-- The TAP instructions of IEEE 1149.1 that R389 names. -/
inductive TapOp where
  | extest | intest | clamp | bypass
  deriving DecidableEq, Repr

/-- Why a power-fail warning is raised (R337). -/
inductive FailCause where
  | undervoltage | overvoltage (millivolts : Nat) | pfWarnN
  deriving DecidableEq, Repr

/-- The outcome of TEST's checks, as the cores report them (R342, R343). -/
structure CoreReport where
  core : RouterId
  /-- The core fails its own check. -/
  selfFail : Bool := false
  /-- How many neighbours tested it, and how many report it failing. -/
  testedBy : Nat := 4
  failedBy : Nat := 0
  /-- How many of its neighbours work. -/
  workingNeighbours : Nat := 4
  /-- Its link east or south fails in either direction. -/
  eastFails : Bool := false
  southFails : Bool := false
  deriving DecidableEq, Repr

/-- The readings of one region at a thermal window (R374): four sensors and, per sensor, whether it differs by
more than 10 °C from the neighbouring regions' sensors. Temperatures are in 0.5 °C units. -/
structure ThermReading where
  region : Region
  sensors : List Nat
  offNeighbours : List Bool
  deriving DecidableEq, Repr

/-- A vat of the other module as the two compare it at pairing (R300): its ingot's digest, its placement, and the KV registers that do not
hold their reset values. -/
structure PeerVat where
  vat : VatId
  digest : Nat := 0
  regions : List Region := []
  kv : List (VatReg × Word64) := []
  deriving DecidableEq, Repr

/-- What a burnish read takes: a line of a core's cream or scratchpad, or a granule of a memory stack with the words of it that show a
single-bit and a double-bit error (R24, R254). -/
inductive BurnishTarget where
  | core (c : CoreId) (line : Fin 3840)
  | stack (s : Fin 24) (granule : Nat) (singles doubles : List Nat)
  deriving DecidableEq, Repr

/-- A channel of a stack and why it is to retire (R255): double-bit errors at three addresses, or a retraining that failed. -/
inductive ChannelCause where
  | threeErrors (ch : Fin 32)
  | retraining (ch : Fin 32)
  deriving DecidableEq, Repr

/-- What failed as the rim came up: a stack its training, a press its self-test (R256, R339). -/
inductive RimPart where
  | stack (k : Fin 24)
  | press (n : Fin 96)
  deriving DecidableEq, Repr

/-- A command of the SKW5: one row of the opcode table (R192, R257 and the steps of the other chapters). -/
inductive Instr where
  | nop (t : Site) (f : FmtA)
  | add (t : Site) (f : FmtA)
  | sub (t : Site) (f : FmtA)
  | and (t : Site) (f : FmtA)
  | or (t : Site) (f : FmtA)
  | xor (t : Site) (f : FmtA)
  | shl (t : Site) (f : FmtA)
  | shr (t : Site) (f : FmtA)
  | sra (t : Site) (f : FmtA)
  | cmp (t : Site) (f : FmtA)
  | min (t : Site) (f : FmtA)
  | max (t : Site) (f : FmtA)
  | mul (t : Site) (f : FmtA)
  | mulhu (t : Site) (f : FmtA)
  | li (t : Site) (f : FmtA)
  | lih (t : Site) (f : FmtA)
  /-- cyc: the cycles of the region clock since the region's last tick, the stamp's second half (R49). -/
  | rdstamp (t : Site) (f : FmtA) (cyc : BitVec 24)
  | br (t : Site) (f : FmtB)
  | jr (t : Site) (f : FmtB)
  | ld (t : Site) (f : FmtM)
  | st (t : Site) (f : FmtM)
  | vld (t : Site) (f : FmtM)
  | vst (t : Site) (f : FmtM)
  | vadd (t : Site) (f : FmtV)
  | vsub (t : Site) (f : FmtV)
  | vmul (t : Site) (f : FmtV)
  | vfma (t : Site) (f : FmtV)
  | vmin (t : Site) (f : FmtV)
  | vmax (t : Site) (f : FmtV)
  | vcmp (t : Site) (f : FmtV)
  | vsel (t : Site) (f : FmtV)
  | vcvt (t : Site) (f : FmtV)
  | vbcast (t : Site) (f : FmtV)
  | vext (t : Site) (f : FmtV)
  | vexp2 (t : Site) (f : FmtV)
  | vrcp (t : Site) (f : FmtV)
  | vrsqrt (t : Site) (f : FmtV)
  | vsum (t : Site) (f : FmtV)
  | vmaxr (t : Site) (f : FmtV)
  | vpack (t : Site) (f : FmtV)
  | vcomb (t : Site) (f : FmtV)
  | vtopk (t : Site) (f : FmtV)
  | vtopp (t : Site) (f : FmtV)
  | vdraw (t : Site) (f : FmtV)
  | mac (t : Site) (f : FmtT)
  | macComplete (c : CoreId)
  | maca (t : Site) (f : FmtT)
  | macaComplete (c : CoreId)
  | tclr (t : Site) (f : FmtT)
  | solder (t : Site) (f : FmtT)
  | tmov (t : Site) (f : FmtX)
  | tmovComplete (t : Site)
  | dma (t : Site) (f : FmtX)
  | dmaDescriptorStart (c : CoreId)
  /-- i: the place of the descriptor among the active ones, which complete in any order (R82). -/
  | dmaDescriptorComplete (c : CoreId) (i : Fin 8)
  | send (t : Site) (f : FmtX)
  | sadd (t : Site) (f : FmtW)
  | arrive (t : Site) (f : FmtW)
  | arrivew (t : Site) (f : FmtW)
  | waitv (t : Site) (f : FmtW)
  | waitg (t : Site) (f : FmtW)
  | walk (t : Site) (f : FmtX)
  | posld (t : Site) (f : FmtM)
  | eob (t : Site) (f : FmtB)
  | tstart (t : Site) (f : FmtB)
  | tstop (t : Site) (f : FmtB)
  | fence (t : Site) (f : FmtB)
  /-- out: 0 north, 1 east, 2 south, 3 west, 4 local; cyc: cycles since the region's last tick (R150). -/
  | flitForward (r : RouterId) (out : Fin 5) (cyc : Nat)
  /-- inp: the link it arrives on; crcOk: whether its CRC passes (R157). -/
  | flitReceive (r : RouterId) (inp : Fin 4) (crcOk : Bool)
  | meshReplay (r : RouterId) (out : Fin 4)
  | flitDelivery (r : RouterId)
  | deliveryAcknowledgement (c : CoreId)
  | creditReturn (r : RouterId) (out : Fin 5) (vc : Fin 2)
  /-- toHalf: the half of the receiving side. -/
  | seamMessageCheck (n : Fin 16) (toHalf : Half)
  /-- dir: false into the grid (or the device), true out of it; each direction has its scheduler (R160). -/
  | serveRound (p : SharedPort) (dir : Bool)
  | meshCommitGo (v : VatId)
  | meshTablesApply (v : VatId)
  | tick (h : Half)
  | tickLoss (r : Region)
  | tickCommitGo
  | vatCommitGo (v : VatId)
  /-- none: the tick group; some v: the group of vat v (R54). -/
  | stagedCommitApply (g : Option VatId)
  | beatGate (v : VatId)
  | slipLimitExceeded (v : VatId)
  | doneReport (v : VatId) (stage : Nat)
  /-- i: which of the vat's reports on the way arrives (R199: in the order they arrive). -/
  | faultReport (v : VatId) (i : Nat)
  | vatStop (v : VatId)
  | storeAdd (h : Half) (col : Fin 16)
  | storeArrive (h : Half) (col : Fin 16)
  | notify (c : CoreId)
  | coreIdleMark (c : CoreId)
  | lendStep (lender borrower : Region)
  | recipeReport (v : VatId) (i : Nat)
  /-- last: the read ends a pass over its stack (R254); a core's read has no use for it. -/
  | burnishRead (t : BurnishTarget) (last : Bool)
  | memEccfatal (c : CoreId) (addr : Nat)
  | start (v : VatId)
  | quiesce (v : VatId)
  | resume (v : VatId)
  | reset (v : VatId)
  | release (v : VatId)
  | quiesced (v : VatId)
  | resetDone (v : VatId)
  | releaseDone (v : VatId)
  | fill (v : VatId) (pail : Nat)
  | headerAcknowledge (v : VatId) (pail : Nat)
  /-- sampled: the tokens the head stage sampled at the pass's positions p to p + d (R41); tick: the stamp. -/
  | commitReport (v : VatId) (st : StreamId) (sampled : List Word32) (tick : Nat)
  | budgetWindow (v : VatId)
  | skimIdle (v : VatId) (st : StreamId)
  | skimCopyDone (v : VatId) (st : StreamId)
  | restoreDone (v : VatId) (st : StreamId)
  | prefillGroup (v : VatId)
  | prefillPassDone (v : VatId)
  | handoffComplete (v : VatId) (st : StreamId) (stage : Nat)
  /-- width32: a 32-bit write at offset 8n; other widths and offsets are false (R321). -/
  | sqDoorbell (n : QueueId) (width32 : Bool) (value : Word32)
  | cqDoorbell (n : QueueId) (width32 : Bool) (value : Word32)
  | entryFetch (n : QueueId) (entry : List Byte)
  | entryReadFailed (n : QueueId)
  | request (n : QueueId)
  | cancel (n : QueueId)
  | skim (n : QueueId)
  /-- ok: the read did not fail (R323). -/
  | promptRead (v : VatId) (st : StreamId) (ok : Bool) (tokens : List Word32)
  | heldCompletionWrite (v : VatId) (st : StreamId)
  | coalesceWindowEnd (n : QueueId)
  | portDown (p : HostPort)
  | portUp (p : HostPort)
  | queEnable (n : QueueId) (value : Word64)
  | queDisable (n : QueueId) (value : Word64)
  | vatRegionsWrite (v : VatId) (w : Fin 3) (value : Word64)
  | kvRegisterWrite (v : VatId) (r : VatReg) (value : Word64)
  | counterRegisterWrite (v : VatId) (r : VatReg) (value : Word64)
  | glbPressWrite (n : Fin 96) (value : Word64)
  | vatPrefillWrite (v : VatId) (value : Word64)
  | ladleVariantWrite (n : Fin 4096) (w : Fin 2) (value : Word64)
  | vatFaultClear (v : VatId)
  | shareWeightWrite (p : SharedPort) (w : Fin 8) (value : Word64)
  | thermCtrlWrite (value : Word64)
  | assayPolicyWrite (value : Word64)
  /-- off: the BAR0 byte offset; width: 32 or 64, any other size writes nothing (R316). -/
  | registerWrite (off : Nat) (width : Nat) (value : Word64)
  | handover
  | takeover
  /-- peer: the other module's vats that are not FREE; peerChained: it has a chained vat. -/
  | pair (peer : List PeerVat) (peerChained : Bool)
  | pwrCtrlOff (value : Word64)
  | retireNow (g : Group)
  | ident
  | smState
  | readReg (off : Nat)
  | events (i : Fin 256)
  | smbusReset (b : Byte)
  | powerOff (b : Byte)
  /-- hallmarkOk: the assay unit's check of the image so far. -/
  | fwImage (block : List Byte) (hallmarkOk : Bool)
  | powerGood
  | powerFailWarn (cause : FailCause)
  | resetNFalling
  | moduleReset
  | shutdown
  /-- oks: the verdicts on the warden, rim and power stage firmware (R339). -/
  | check (wardenOk rimOk powerOk : Bool)
  /-- ok: the phase succeeds; failed: stacks that fail training; badPresses: presses that fail their self-test. -/
  | rim (ok : Bool) (failed : List RimPart)
  | wake (ok : Bool)
  | test (ok : Bool) (full : List CoreReport)
  | ready (ok : Bool)
  | regionPowerUpStart (h : Half)
  | regionPowerUpEnd (r : Region)
  | relock (r : Region)
  | inrushAbort (r : Region)
  | wakeRetry (r : Region)
  | temperStep (r : Region)
  | thermalWindow (inlet outlet : Nat) (readings : List ThermReading)
  | stretch (v : VatId)
  | stretchRelease (v : VatId)
  /-- temp: the sensor's reading in 0.5 °C units. -/
  | quench (r : Region) (temp : Nat)
  | coolantHigh (inlet : Nat)
  | coolantShutdown (inlet : Nat)
  | halfFault (h : Half)
  | halfRestartDone (h : Half)
  | coreRetired (c : CoreId)
  | regionRetired (r : Region)
  /-- pairB: the broken pair is B. -/
  | senseBroken (g : Group) (pairB : Bool)
  | supplyFault (g : Group)
  /-- ok: the converter restarts. -/
  | converterRestart (g : Group) (ok : Bool)
  /-- drop: the measured drop beyond the load model, in mV, over a valid window. -/
  | bumpSuspect (r : Region) (drop : Nat)
  | fuseTrip (r : Region)
  | channelRetired (s : Fin 24) (cause : ChannelCause)
  | linkTraining (l : LinkId) (presence : Bool) (peerValid : Bool) (peerDev : BitVec 16)
      (peerLink : BitVec 6) (peerRole : BitVec 2)
  /-- cell: its 36 bytes, the frame and the tag (R286). -/
  | cellReceive (l : LinkId) (cell : List Byte)
  | controlCell (l : LinkId) (info : ControlInfo)
  | linkReplay (l : LinkId)
  | laneRetired (l : LinkId) (cause : LaneCause)
  | spareLaneIn (l : LinkId)
  | linkRetired (l : LinkId)
  | packetForward (l : LinkId)
  | linkWrite (l : LinkId)
  | linkRead (l : LinkId)
  | linkData (l : LinkId)
  | linkAck (l : LinkId)
  | load (l : LinkId)
  | remoteTimeout (c : CoreId) (i : Fin 8)
  | tagQuarantineEnd (c : CoreId) (tag : Fin 64)
  | mirrorStream (v : VatId) (m : MirrorStream)
  | mirrorKv (v : VatId) (st : StreamId) (stage : Nat) (pos head : Nat) (bytes : List Byte)
  | mirrorCommit (v : VatId) (m : MirrorCommit)
  | mirrorFill (v : VatId) (pail : Nat) (streams : List StreamId)
  | mirrorLadle (v : VatId) (cursor : Nat) (credits : List (QueueId × Nat)) (balances : List (Fin 4096 × Word32))
      (entries : List (QueueId × List Byte × Nat))
  | mirrorEnd (v : VatId) (st : StreamId) (status : Status)
  | twinCommitAck (v : VatId) (st : StreamId) (lc : Nat)
  | failPacket (mask : Word64)
  | handoverPacket (mask : Word64)
  | twinSilence
  /-- digestOk: the segment's digest matches the table (R357). -/
  | ingotSegment (v : VatId) (idx : Nat) (items : List SegItem) (digestOk : Bool)
  | inputLoss
  | inputReturned
  /-- sigOk: the signature over the table verifies (R357). -/
  | segmentTable (v : VatId) (t : IngotTable) (sigOk : Bool)
  | vatLoaded (v : VatId)
  | mirrored
  | illegalOpcode (t : Site) (w : Word64)
  | tapInstruction (op : TapOp) (cells : Word64)
  | smbusAlertResponse
  deriving DecidableEq, Repr

end Sys2Proof
end

