-- ==== Sys2Proof/Decode.lean ====
section
/-! DEFINITION. The instruction words of Yiltil (R191, R192), and the words of the opcode table, whose rows give no bits. -/

namespace Sys2Proof

/-! ## Fields (R191) -/

/-- The fields of a word in format A: scalar. -/
def fmtA (n : Nat) : FmtA :=
  { d := BitVec.ofNat 5 (n / 2 ^ 8), a := BitVec.ofNat 5 (n / 2 ^ 13), b := BitVec.ofNat 5 (n / 2 ^ 18),
    i := BitVec.ofNat 1 (n / 2 ^ 23), func := BitVec.ofNat 8 (n / 2 ^ 24), imm := BitVec.ofNat 32 (n / 2 ^ 32) }
/-- The word of an opcode with fields in format A. -/
def wordA (op : Nat) (f : FmtA) : Word64 :=
  w64 (op + f.d.toNat * 2 ^ 8 + f.a.toNat * 2 ^ 13 + f.b.toNat * 2 ^ 18 + f.i.toNat * 2 ^ 23 + f.func.toNat * 2 ^ 24
    + f.imm.toNat * 2 ^ 32)

/-- The fields of a word in format B: branch and control. -/
def fmtB (n : Nat) : FmtB :=
  { a := BitVec.ofNat 5 (n / 2 ^ 8), b := BitVec.ofNat 5 (n / 2 ^ 13), cond := BitVec.ofNat 3 (n / 2 ^ 18),
    thread := BitVec.ofNat 4 (n / 2 ^ 21), rsv := BitVec.ofNat 7 (n / 2 ^ 25), target := BitVec.ofNat 32 (n / 2 ^ 32) }
/-- The word of an opcode with fields in format B. -/
def wordB (op : Nat) (f : FmtB) : Word64 :=
  w64 (op + f.a.toNat * 2 ^ 8 + f.b.toNat * 2 ^ 13 + f.cond.toNat * 2 ^ 18 + f.thread.toNat * 2 ^ 21 + f.rsv.toNat * 2 ^ 25
    + f.target.toNat * 2 ^ 32)

/-- The fields of a word in format M: memory. -/
def fmtM (n : Nat) : FmtM :=
  { d := BitVec.ofNat 5 (n / 2 ^ 8), base := BitVec.ofNat 5 (n / 2 ^ 13), width := BitVec.ofNat 2 (n / 2 ^ 18),
    acc := BitVec.ofNat 2 (n / 2 ^ 20), sign := BitVec.ofNat 1 (n / 2 ^ 22), rsv1 := BitVec.ofNat 1 (n / 2 ^ 23),
    offset := BitVec.ofNat 24 (n / 2 ^ 24), rsv2 := BitVec.ofNat 16 (n / 2 ^ 48) }
/-- The word of an opcode with fields in format M. -/
def wordM (op : Nat) (f : FmtM) : Word64 :=
  w64 (op + f.d.toNat * 2 ^ 8 + f.base.toNat * 2 ^ 13 + f.width.toNat * 2 ^ 18 + f.acc.toNat * 2 ^ 20
    + f.sign.toNat * 2 ^ 22 + f.rsv1.toNat * 2 ^ 23 + f.offset.toNat * 2 ^ 24 + f.rsv2.toNat * 2 ^ 48)

/-- The fields of a word in format V: vector. -/
def fmtV (n : Nat) : FmtV :=
  { vd := BitVec.ofNat 3 (n / 2 ^ 8), va := BitVec.ofNat 3 (n / 2 ^ 11), vb := BitVec.ofNat 3 (n / 2 ^ 14),
    vc := BitVec.ofNat 3 (n / 2 ^ 17), fmt := BitVec.ofNat 4 (n / 2 ^ 20), s := BitVec.ofNat 5 (n / 2 ^ 24),
    sb := BitVec.ofNat 1 (n / 2 ^ 29), rsv1 := BitVec.ofNat 2 (n / 2 ^ 30), func := BitVec.ofNat 16 (n / 2 ^ 32),
    rsv2 := BitVec.ofNat 16 (n / 2 ^ 48) }
/-- The word of an opcode with fields in format V. -/
def wordV (op : Nat) (f : FmtV) : Word64 :=
  w64 (op + f.vd.toNat * 2 ^ 8 + f.va.toNat * 2 ^ 11 + f.vb.toNat * 2 ^ 14 + f.vc.toNat * 2 ^ 17 + f.fmt.toNat * 2 ^ 20
    + f.s.toNat * 2 ^ 24 + f.sb.toNat * 2 ^ 29 + f.rsv1.toNat * 2 ^ 30 + f.func.toNat * 2 ^ 32 + f.rsv2.toNat * 2 ^ 48)

/-- The fields of a word in format T: tile. -/
def fmtT (n : Nat) : FmtT :=
  { line := BitVec.ofNat 12 (n / 2 ^ 8), count := BitVec.ofNat 12 (n / 2 ^ 20), wfmt := BitVec.ofNat 4 (n / 2 ^ 32),
    afmt := BitVec.ofNat 4 (n / 2 ^ 36), cls := BitVec.ofNat 1 (n / 2 ^ 40), buf := BitVec.ofNat 1 (n / 2 ^ 41),
    tok := BitVec.ofNat 2 (n / 2 ^ 42), tile := BitVec.ofNat 1 (n / 2 ^ 44), feat := BitVec.ofNat 10 (n / 2 ^ 45),
    src := BitVec.ofNat 4 (n / 2 ^ 55), span := BitVec.ofNat 5 (n / 2 ^ 59) }
/-- The word of an opcode with fields in format T. -/
def wordT (op : Nat) (f : FmtT) : Word64 :=
  w64 (op + f.line.toNat * 2 ^ 8 + f.count.toNat * 2 ^ 20 + f.wfmt.toNat * 2 ^ 32 + f.afmt.toNat * 2 ^ 36
    + f.cls.toNat * 2 ^ 40 + f.buf.toNat * 2 ^ 41 + f.tok.toNat * 2 ^ 42 + f.tile.toNat * 2 ^ 44
    + f.feat.toNat * 2 ^ 45 + f.src.toNat * 2 ^ 55 + f.span.toNat * 2 ^ 59)

/-- The fields of a word in format X: transfer. -/
def fmtX (n : Nat) : FmtX :=
  { dst := BitVec.ofNat 5 (n / 2 ^ 8), src := BitVec.ofNat 5 (n / 2 ^ 13), len := BitVec.ofNat 5 (n / 2 ^ 18),
    cls := BitVec.ofNat 3 (n / 2 ^ 23), vc := BitVec.ofNat 1 (n / 2 ^ 26), opw := BitVec.ofNat 2 (n / 2 ^ 27),
    mc := BitVec.ofNat 1 (n / 2 ^ 29), mdir := BitVec.ofNat 2 (n / 2 ^ 30), mspan := BitVec.ofNat 9 (n / 2 ^ 32),
    flow := BitVec.ofNat 8 (n / 2 ^ 41), rot := BitVec.ofNat 1 (n / 2 ^ 49), rsv := BitVec.ofNat 14 (n / 2 ^ 50) }
/-- The word of an opcode with fields in format X. -/
def wordX (op : Nat) (f : FmtX) : Word64 :=
  w64 (op + f.dst.toNat * 2 ^ 8 + f.src.toNat * 2 ^ 13 + f.len.toNat * 2 ^ 18 + f.cls.toNat * 2 ^ 23 + f.vc.toNat * 2 ^ 26
    + f.opw.toNat * 2 ^ 27 + f.mc.toNat * 2 ^ 29 + f.mdir.toNat * 2 ^ 30 + f.mspan.toNat * 2 ^ 32
    + f.flow.toNat * 2 ^ 41 + f.rot.toNat * 2 ^ 49 + f.rsv.toNat * 2 ^ 50)

/-- The fields of a word in format W: wait and signal. -/
def fmtW (n : Nat) : FmtW :=
  { vid := BitVec.ofNat 12 (n / 2 ^ 8), s := BitVec.ofNat 5 (n / 2 ^ 20), rsv1 := BitVec.ofNat 7 (n / 2 ^ 25),
    value := BitVec.ofNat 16 (n / 2 ^ 32), rsv2 := BitVec.ofNat 16 (n / 2 ^ 48) }
/-- The word of an opcode with fields in format W. -/
def wordW (op : Nat) (f : FmtW) : Word64 :=
  w64 (op + f.vid.toNat * 2 ^ 8 + f.s.toNat * 2 ^ 20 + f.rsv1.toNat * 2 ^ 25 + f.value.toNat * 2 ^ 32
    + f.rsv2.toNat * 2 ^ 48)

/-! ## The opcode map (R192) -/

/-- The opcodes of the map (R192). -/
def inOpcodeMap (op : Nat) : Bool :=
  op ≤ 0x10 || op = 0x20 || op = 0x21 || (0x30 ≤ op && op ≤ 0x33) || (0x40 ≤ op && op ≤ 0x4A) || (0x50 ≤ op && op ≤ 0x59)
    || (0x60 ≤ op && op ≤ 0x63) || op = 0x70 || op = 0x71 || op = 0x80 || (0x90 ≤ op && op ≤ 0x94) || op = 0xA0 || op = 0xA1
    || (0xB0 ≤ op && op ≤ 0xB3)

/-- The instruction that a word spells for a thread, outside the map ILLEGAL_OPCODE; cyc is RDSTAMP's cycle count, which no word holds. -/
def decodeYiltil (t : Site) (cyc : BitVec 24) (w : Word64) : Instr :=
  let n := w.toNat
  match n % 256 with
  | 0x00 => .nop t (fmtA n)
  | 0x01 => .add t (fmtA n)
  | 0x02 => .sub t (fmtA n)
  | 0x03 => .and t (fmtA n)
  | 0x04 => .or t (fmtA n)
  | 0x05 => .xor t (fmtA n)
  | 0x06 => .shl t (fmtA n)
  | 0x07 => .shr t (fmtA n)
  | 0x08 => .sra t (fmtA n)
  | 0x09 => .cmp t (fmtA n)
  | 0x0A => .min t (fmtA n)
  | 0x0B => .max t (fmtA n)
  | 0x0C => .mul t (fmtA n)
  | 0x0D => .mulhu t (fmtA n)
  | 0x0E => .li t (fmtA n)
  | 0x0F => .lih t (fmtA n)
  | 0x10 => .rdstamp t (fmtA n) cyc
  | 0x20 => .br t (fmtB n)
  | 0x21 => .jr t (fmtB n)
  | 0x30 => .ld t (fmtM n)
  | 0x31 => .st t (fmtM n)
  | 0x32 => .vld t (fmtM n)
  | 0x33 => .vst t (fmtM n)
  | 0x40 => .vadd t (fmtV n)
  | 0x41 => .vsub t (fmtV n)
  | 0x42 => .vmul t (fmtV n)
  | 0x43 => .vfma t (fmtV n)
  | 0x44 => .vmin t (fmtV n)
  | 0x45 => .vmax t (fmtV n)
  | 0x46 => .vcmp t (fmtV n)
  | 0x47 => .vsel t (fmtV n)
  | 0x48 => .vcvt t (fmtV n)
  | 0x49 => .vbcast t (fmtV n)
  | 0x4A => .vext t (fmtV n)
  | 0x50 => .vexp2 t (fmtV n)
  | 0x51 => .vrcp t (fmtV n)
  | 0x52 => .vrsqrt t (fmtV n)
  | 0x53 => .vsum t (fmtV n)
  | 0x54 => .vmaxr t (fmtV n)
  | 0x55 => .vpack t (fmtV n)
  | 0x56 => .vcomb t (fmtV n)
  | 0x57 => .vtopk t (fmtV n)
  | 0x58 => .vtopp t (fmtV n)
  | 0x59 => .vdraw t (fmtV n)
  | 0x60 => .mac t (fmtT n)
  | 0x61 => .maca t (fmtT n)
  | 0x62 => .tclr t (fmtT n)
  | 0x63 => .solder t (fmtT n)
  | 0x70 => .tmov t (fmtX n)
  | 0x71 => .dma t (fmtX n)
  | 0x80 => .send t (fmtX n)
  | 0x90 => .sadd t (fmtW n)
  | 0x91 => .arrive t (fmtW n)
  | 0x92 => .arrivew t (fmtW n)
  | 0x93 => .waitv t (fmtW n)
  | 0x94 => .waitg t (fmtW n)
  | 0xA0 => .walk t (fmtX n)
  | 0xA1 => .posld t (fmtM n)
  | 0xB0 => .eob t (fmtB n)
  | 0xB1 => .tstart t (fmtB n)
  | 0xB2 => .tstop t (fmtB n)
  | 0xB3 => .fence t (fmtB n)
  | _ => .illegalOpcode t w

/-- The word of an instruction, none for a command that is no instruction. -/
def encodeYiltil (i : Instr) : Option Word64 :=
  match i with
  | .nop _ f => some (wordA 0x00 f)
  | .add _ f => some (wordA 0x01 f)
  | .sub _ f => some (wordA 0x02 f)
  | .and _ f => some (wordA 0x03 f)
  | .or _ f => some (wordA 0x04 f)
  | .xor _ f => some (wordA 0x05 f)
  | .shl _ f => some (wordA 0x06 f)
  | .shr _ f => some (wordA 0x07 f)
  | .sra _ f => some (wordA 0x08 f)
  | .cmp _ f => some (wordA 0x09 f)
  | .min _ f => some (wordA 0x0A f)
  | .max _ f => some (wordA 0x0B f)
  | .mul _ f => some (wordA 0x0C f)
  | .mulhu _ f => some (wordA 0x0D f)
  | .li _ f => some (wordA 0x0E f)
  | .lih _ f => some (wordA 0x0F f)
  | .rdstamp _ f _ => some (wordA 0x10 f)
  | .br _ f => some (wordB 0x20 f)
  | .jr _ f => some (wordB 0x21 f)
  | .ld _ f => some (wordM 0x30 f)
  | .st _ f => some (wordM 0x31 f)
  | .vld _ f => some (wordM 0x32 f)
  | .vst _ f => some (wordM 0x33 f)
  | .vadd _ f => some (wordV 0x40 f)
  | .vsub _ f => some (wordV 0x41 f)
  | .vmul _ f => some (wordV 0x42 f)
  | .vfma _ f => some (wordV 0x43 f)
  | .vmin _ f => some (wordV 0x44 f)
  | .vmax _ f => some (wordV 0x45 f)
  | .vcmp _ f => some (wordV 0x46 f)
  | .vsel _ f => some (wordV 0x47 f)
  | .vcvt _ f => some (wordV 0x48 f)
  | .vbcast _ f => some (wordV 0x49 f)
  | .vext _ f => some (wordV 0x4A f)
  | .vexp2 _ f => some (wordV 0x50 f)
  | .vrcp _ f => some (wordV 0x51 f)
  | .vrsqrt _ f => some (wordV 0x52 f)
  | .vsum _ f => some (wordV 0x53 f)
  | .vmaxr _ f => some (wordV 0x54 f)
  | .vpack _ f => some (wordV 0x55 f)
  | .vcomb _ f => some (wordV 0x56 f)
  | .vtopk _ f => some (wordV 0x57 f)
  | .vtopp _ f => some (wordV 0x58 f)
  | .vdraw _ f => some (wordV 0x59 f)
  | .mac _ f => some (wordT 0x60 f)
  | .maca _ f => some (wordT 0x61 f)
  | .tclr _ f => some (wordT 0x62 f)
  | .solder _ f => some (wordT 0x63 f)
  | .tmov _ f => some (wordX 0x70 f)
  | .dma _ f => some (wordX 0x71 f)
  | .send _ f => some (wordX 0x80 f)
  | .sadd _ f => some (wordW 0x90 f)
  | .arrive _ f => some (wordW 0x91 f)
  | .arrivew _ f => some (wordW 0x92 f)
  | .waitv _ f => some (wordW 0x93 f)
  | .waitg _ f => some (wordW 0x94 f)
  | .walk _ f => some (wordX 0xA0 f)
  | .posld _ f => some (wordM 0xA1 f)
  | .eob _ f => some (wordB 0xB0 f)
  | .tstart _ f => some (wordB 0xB1 f)
  | .tstop _ f => some (wordB 0xB2 f)
  | .fence _ f => some (wordB 0xB3 f)
  | .illegalOpcode _ w => some w
  | _ => none

/-- The thread that an instruction names, with the cycle count that RDSTAMP reads. -/
def siteOf (i : Instr) : Option (Site × BitVec 24) :=
  match i with
  | .nop t _ => some (t, 0)
  | .add t _ => some (t, 0)
  | .sub t _ => some (t, 0)
  | .and t _ => some (t, 0)
  | .or t _ => some (t, 0)
  | .xor t _ => some (t, 0)
  | .shl t _ => some (t, 0)
  | .shr t _ => some (t, 0)
  | .sra t _ => some (t, 0)
  | .cmp t _ => some (t, 0)
  | .min t _ => some (t, 0)
  | .max t _ => some (t, 0)
  | .mul t _ => some (t, 0)
  | .mulhu t _ => some (t, 0)
  | .li t _ => some (t, 0)
  | .lih t _ => some (t, 0)
  | .rdstamp t _ cyc => some (t, cyc)
  | .br t _ => some (t, 0)
  | .jr t _ => some (t, 0)
  | .ld t _ => some (t, 0)
  | .st t _ => some (t, 0)
  | .vld t _ => some (t, 0)
  | .vst t _ => some (t, 0)
  | .vadd t _ => some (t, 0)
  | .vsub t _ => some (t, 0)
  | .vmul t _ => some (t, 0)
  | .vfma t _ => some (t, 0)
  | .vmin t _ => some (t, 0)
  | .vmax t _ => some (t, 0)
  | .vcmp t _ => some (t, 0)
  | .vsel t _ => some (t, 0)
  | .vcvt t _ => some (t, 0)
  | .vbcast t _ => some (t, 0)
  | .vext t _ => some (t, 0)
  | .vexp2 t _ => some (t, 0)
  | .vrcp t _ => some (t, 0)
  | .vrsqrt t _ => some (t, 0)
  | .vsum t _ => some (t, 0)
  | .vmaxr t _ => some (t, 0)
  | .vpack t _ => some (t, 0)
  | .vcomb t _ => some (t, 0)
  | .vtopk t _ => some (t, 0)
  | .vtopp t _ => some (t, 0)
  | .vdraw t _ => some (t, 0)
  | .mac t _ => some (t, 0)
  | .maca t _ => some (t, 0)
  | .tclr t _ => some (t, 0)
  | .solder t _ => some (t, 0)
  | .tmov t _ => some (t, 0)
  | .dma t _ => some (t, 0)
  | .send t _ => some (t, 0)
  | .sadd t _ => some (t, 0)
  | .arrive t _ => some (t, 0)
  | .arrivew t _ => some (t, 0)
  | .waitv t _ => some (t, 0)
  | .waitg t _ => some (t, 0)
  | .walk t _ => some (t, 0)
  | .posld t _ => some (t, 0)
  | .eob t _ => some (t, 0)
  | .tstart t _ => some (t, 0)
  | .tstop t _ => some (t, 0)
  | .fence t _ => some (t, 0)
  | .illegalOpcode t _ => some (t, 0)
  | _ => none

/-! ## The opcode table -/

/-- The command that a word spells by the table's bits: the rows give none, so no word spells a command. -/
def decodeTableWord (_nbits _w : Nat) : Option Instr := none

end Sys2Proof
end

