-- ==== Sys2Proof/Machine/State.lean ====
section
/-! DEFINITION. The state of the SKW5 module: plain data, every piece of state the spec names. A table with few
entries in use is a list of keys and values; what a key not listed reads as is the table's default, which the
accessors of Machine/Ops.lean give. Registers of BAR0 are words of their own (R318), and each has one home: regs. -/

namespace Sys2Proof.Machine

/-- Why the machine stops: only where the spec gives no behaviour at all. -/
inductive Fault where
  /-- Raised by POWER_FAIL_WARN, COOLANT_HIGH, COOLANT_SHUTDOWN and QUENCH for an input beyond an absolute
  maximum rating: R390 says the module's behaviour there is not specified. Safe: the machine stops where the hardware goes on
  in a way nobody states. -/
  | beyondRatings
  deriving DecidableEq, Repr

/-- Why a command has no meaning. -/
inductive Refusal where
  /-- Raised by an arm of exec whose command has no meaning yet. Safe: the machine stops. -/
  | notModelled (mnemonic : String)
  deriving DecidableEq, Repr

/-- A table of values by key; a key not listed has the table's default. -/
abbrev KMap (κ α : Type) := List (κ × α)

/-- Byte memory: address and byte, addresses strictly rising, no entry equal to 0, the byte an unlisted address
reads as (log entry 2). -/
abbrev Mem := List Host.Cell

/-- Why a thread of R58 is or is not ready. -/
inductive ThreadStatus where
  | idle
  | ready
  /-- Held at EOB until the vat's next beat edge (R187). -/
  | eob
  /-- Stalled at WAITV for the mirror to reach the target (R175). -/
  | waitV (vid : Vid) (target : Word32)
  /-- Stalled until the thread's arrived bit for the id clears (R235). -/
  | waitG (vid : Vid)
  /-- Held at a second arrival of the round (R177). -/
  | heldArrive (vid : Vid)
  deriving DecidableEq, Repr

/-- A hardware thread (R58), with its SOLDER arming (R219) and its count of sends not yet delivered (R178). -/
structure Thread where
  status : ThreadStatus := .idle
  pc : Nat := 0
  regs : KMap (BitVec 5) Word64 := []
  vregs : KMap (BitVec 3) (List Word32) := []
  /-- The staged stream address of each token position, none where the position has no stream. -/
  solder : Option (List (Option Nat)) := none
  undelivered : Nat := 0
  /-- The tick since which the thread has waited (R180). -/
  waitSince : Nat := 0
  deriving DecidableEq, Repr

/-- A mirror entry (R173). -/
structure Mirror where
  value : Word32 := 0
  gen : Bool := false
  arrived : BitVec 16 := 0
  deriving DecidableEq, Repr

/-- A MAC or MACA in the MAC queue (R73, R203). -/
structure MacJob where
  thread : Fin 16
  /-- The instruction's index, for a fault record (R200). -/
  pc : Nat := 0
  f : FmtT
  attention : Bool := false
  /-- MACA: the walk output's address and its first 32 bytes as read at issue (R223). -/
  walk : Nat := 0
  head : List Byte := []
  solder : Option (List (Option Nat)) := none
  /-- The sweep has been made; a weight-bus sweep waits for its span (R69). -/
  swept : Bool := false
  deriving DecidableEq, Repr

/-- A TMOV in progress (R225). -/
structure Move where
  thread : Fin 16
  src : Nat
  dst : Nat
  len : Nat
  deriving DecidableEq, Repr

/-- A DMA or page-walk descriptor (R228, R232) in the queue or active. -/
structure Desc where
  src : Word64 := 0
  dst : Word64 := 0
  length : Nat := 0
  fence : Bool := false
  signal : Bool := false
  loader : Bool := false
  vid : Nat := 0
  addVal : Nat := 0
  statusAddr : Nat := 0
  isWalk : Bool := false
  /-- The tick at which it became active, and the ticks of its timeout window (R52, R299). -/
  startTick : Nat := 0
  window : Nat := 1
  /-- Its request tag when it is a remote descriptor (R299). -/
  tag : Option (Fin 64) := none
  /-- The TAG its packets carry (R287). -/
  ptag : Nat := 0
  /-- Bytes moved so far, and messages not yet acknowledged (R178). -/
  moved : Nat := 0
  undelivered : Nat := 0
  /-- Messages of it between a rim port and a rim block that have not arrived (R29, R30, R160). -/
  trips : Nat := 0
  /-- The status it completes with, once that is decided (R83). -/
  result : Option Status := none
  /-- An identity, so that acknowledgements and replies find it. -/
  uid : Nat := 0
  deriving DecidableEq, Repr

/-- A flit: R144's fields that steer it, and its data. -/
structure Flit where
  dstPx : Nat := 0
  dstPy : Nat := 0
  vat : VatId := 0
  vc : Fin 2 := 1
  cls : Nat := 0
  head : Bool := true
  tail : Bool := true
  mcast : Bool := false
  mdir : Fin 4 := 0
  mspan : Nat := 0
  /-- NOTIFY: the first logical x of its chain (R174). -/
  chain : Option Nat := none
  /-- On its way to the place where its chain begins: the physical position of the chain's last target (R155, R174). -/
  join : Option (Nat × Nat) := none
  /-- It stands where its chain begins, off its sender's own router (R155). -/
  joined : Bool := false
  dstAddr : Nat := 0
  op : Nat := 0
  flow : Nat := 0
  src : CoreId := ⟨0, 0⟩
  bytes : Nat := 64
  lseq : Nat := 0
  bypass : Bool := false
  data : List Byte := []
  /-- The message it belongs to, by the stamp of its injection. -/
  mid : Nat := 0
  /-- The sender counts the message until its acknowledgement: a thread's, a descriptor's by its uid, or a SIGNAL (R44, R178). -/
  counted : Bool := false
  thread : Option (Fin 16) := none
  uid : Nat := 0
  /-- A delivery acknowledgement (R178), and the seam port that a message has crossed or that its acknowledgement goes back by. -/
  ack : Bool := false
  seam : Option (Fin 16) := none
  /-- CONFIG: marked as loader traffic by a rim port (R144). -/
  loader : Bool := false
  /-- Addressed to a router for its counter store or seam port, not for its core: no remap applies (R148, R168). -/
  toPort : Bool := false
  /-- Order of arrival in the buffer it stands in (R151: the oldest), and whether it was counted as a collision. -/
  age : Nat := 0
  collided : Bool := false
  /-- Multicast: the outputs already served at this hop (R155). -/
  served : List (Fin 5) := []
  /-- Bypass: the outputs still to take, the dead link's direction, and the number the flit had on it (R158). -/
  via : List (Fin 5) := []
  bdir : Fin 4 := 0
  orig : Nat := 0
  deriving DecidableEq, Repr

/-- A router (R143) with its tables (R147, R150), replay buffers (R157) and credits (R153). Directions are 0 north,
1 east, 2 south, 3 west, 4 local. -/
structure Router where
  inq : KMap (Fin 5 × Fin 2) (List Flit) := []
  /-- The local output's port queue, towards FLIT_DELIVERY (R63). -/
  deliver : List Flit := []
  /-- Credits in use and credits on their way back, per output and channel. -/
  used : KMap (Fin 5 × Fin 2) Nat := []
  returning : KMap (Fin 5 × Fin 2) Nat := []
  /-- Flits on the link of each direction output. -/
  wire : KMap (Fin 4) (List Flit) := []
  replay : KMap (Fin 4) (List Flit) := []
  lseqOut : KMap (Fin 4) Nat := []
  lseqIn : KMap (Fin 4) Nat := []
  /-- A replay request that has arrived for an output, and how often its first flit has failed. -/
  replayReq : KMap (Fin 4) Nat := []
  fails : KMap (Fin 4) Nat := []
  dead : List (Fin 4) := []
  /-- Flits of a dead link's replay buffer that leave first, by its bypass, in LSEQ order; the dead outputs whose traffic the
  committed tables still send here, so that a bypass is in use (R158, R167). -/
  redo : List Flit := []
  bypassing : List (Fin 4) := []
  routes : KMap (Fin 16) Word64 := []
  routeShadow : KMap (Fin 16) Word64 := []
  slots : KMap (Fin 5 × Fin 256) (BitVec 16) := []
  slotShadow : KMap (Fin 5 × Fin 256) (BitVec 16) := []
  rr : KMap (Fin 5) Nat := []
  fenced : Bool := false
  /-- SIGNAL flits delivered to the counter store at this router (R168, R170). -/
  storeQ : List Flit := []
  deriving DecidableEq, Repr

/-- A D-core: its threads, instruction store, local address space (R56), control words (R85), queues. -/
structure Core where
  threads : KMap (Fin 16) Thread := []
  imem : KMap (Fin 2048) Word64 := []
  mem : Mem := []
  /-- Words with a single-bit or a double-bit error (R24, R66), by the byte address of the word. -/
  eccSingle : List Nat := []
  eccDouble : List Nat := []
  /-- Double-bit errors met, as word, tick and the hour's ticks (R52, R363: the same word within one hour). -/
  eccLog : List (Nat × Nat × Nat) := []
  /-- Single-bit errors corrected in cream, as line, tick and the hour's ticks (R52, R363: more than 16 in one line within one
  hour). -/
  fixLog : List (Nat × Nat × Nat) := []
  wb : Nat := 0
  gate : BitVec 4 := 8
  layerTag : BitVec 12 := 0
  spmWrap : Bool := false
  tileAWrap : Bool := false
  tileBWrap : Bool := false
  eccFatal : Bool := false
  eccCorrected : Nat := 0
  solderHold : Nat := 0
  /-- The causes already reported under the tag (R111). -/
  causeMask : BitVec 4 := 0
  posRegs : KMap (Fin 4) (BitVec 16) := []
  macRun : Option MacJob := none
  macWait : Option MacJob := none
  moves : List Move := []
  dmaQ : List Desc := []
  dmaActive : List Desc := []
  /-- Tags in quarantine: tag, packet TAG, the window's first tick and its ticks (R52, R299). -/
  quarantine : List (Fin 64 × Nat × Nat × Nat) := []
  /-- Delivery acknowledgements that have come to this core (R178): the thread, or a descriptor's uid; neither is a SIGNAL's. -/
  acks : List (Option (Fin 16) × Nat) := []
  /-- SIGNAL messages of this core that its receivers have not yet taken (R44). -/
  signalsOut : Nat := 0
  notifyQ : List Flit := []
  /-- The hand-off buffer: flits of other stages' outputs, held until the beat edge (R44); those released at an edge that an
  activation buffer in use still holds back (R74). -/
  handoff : List Flit := []
  released : List Flit := []
  mirrors : KMap Vid Mirror := []
  /-- The core has stopped issuing (R199 step 1). -/
  halted : Bool := false
  idleMark : Bool := false
  deriving DecidableEq, Repr

/-- A seam port (R17, R159): flits gathered per receiving half, whole messages awaiting their check. -/
structure SeamPort where
  gather : KMap Half (List Flit) := []
  arrived : KMap Half (List (List Flit)) := []
  /-- The port refuses all traffic until the seam is retrained (R21). -/
  closed : Bool := false
  /-- The messages whose further flits the port discards, because it refused their first ones (R21). -/
  skip : List Nat := []
  deriving DecidableEq, Repr

/-- A rim port (R20, R28): the flits of messages that have come to it in part, its refusal counter, and the router of the working
edge core that bring-up chose for it, none where it stands at its first choice. -/
structure RimPort where
  gather : List Flit := []
  refused : Nat := 0
  place : Option RouterId := none
  deriving DecidableEq, Repr

/-- A NOTIFY that a counter store sends: the counter, GEN and VALUE, and the rectangle rows still to send (R174). -/
structure NotifyJob where
  vat : VatId
  vid : Vid
  gen : Nat := 0
  value : Nat := 0
  barrier : Bool := false
  rows : List Nat := []
  deriving DecidableEq, Repr

/-- The tables that a MESH_COMMIT has copied (R53, R163), and the tick at which they are due. -/
structure MeshSet where
  routes : List (RouterId × Fin 16 × Word64) := []
  slots : List (RouterId × (Fin 5 × Fin 256) × BitVec 16) := []
  due : Option Nat := none
  deriving DecidableEq, Repr

/-- What leaves the module towards the host: posted writes of completions, and messages. -/
inductive Out where
  | completion (n : QueueId) (index : Nat) (bytes : List Byte)
  | msix (p : HostPort) (vector : Nat)
  deriving DecidableEq, Repr

/-- What a trip carries: part of a descriptor's transfer, by core and uid; a packet on its way out to a link; a packet that has come from a
link and goes to the place it is for (R297); a press's read for a pass of a vat (R252); a completion entry on its way to the host, and part
of a stream's prompt on its way from the host (R319). -/
inductive TripOwner where
  | desc (c : CoreId) (uid : Nat)
  | packetOut (l : LinkId) (p : Packet)
  | packetIn (l : LinkId) (p : Packet)
  | pass (v : VatId)
  | entry (n : QueueId) (o : Out)
  | prompt (v : VatId) (st : StreamId)
  deriving DecidableEq, Repr

/-- A message of at most 4,096 B between a rim port and a rim block, or through a host port (R29, R30, R160, R319): its vat and size, the directions of shared ports that
it still has to pass, and the transfer that waits for it. -/
structure Trip where
  vat : VatId
  bytes : Nat
  hops : List (SharedPort × Bool) := []
  owner : TripOwner
  deriving DecidableEq, Repr

/-- What waits at a shared port (R160): a message of flits, a link packet, or a message between a rim port and a rim block. -/
inductive Parcel where
  | message (fs : List Flit)
  | packet (p : Packet)
  | trip (t : Trip)
  deriving DecidableEq, Repr

/-- One direction of a shared port's scheduler (R160). Participant 64 is forwarded packets (R295). -/
structure Sched where
  deficit : KMap (Fin 65) Nat := []
  waiting : KMap (Fin 65) (List Parcel) := []
  deriving DecidableEq, Repr

/-- One entry of a page list (R120). -/
structure PageEntry where
  number : Nat
  skimmed : Bool := false
  deriving DecidableEq, Repr

/-- A completion entry's contents (R326). -/
structure Completion where
  cmdId : BitVec 16 := 0
  status : Status := .ok
  first : Bool := false
  fin : Bool := false
  control : Bool := false
  tokens : List Word32 := []
  vat : VatId := 0
  stream : BitVec 16 := 0xFFFF
  lc : Nat := 0
  commitTick : Nat := 0
  fetchTick : Nat := 0
  entryTick : Nat := 0
  deriving DecidableEq, Repr

/-- Where a stream of R267 stands on its way. -/
inductive Phase where
  /-- A one-token prompt waiting for its read (R323). -/
  | awaitPrompt
  /-- Waiting for a prefill group (R242). -/
  | awaitPrefill
  /-- In a prefill pass, or waiting for its hand-offs (R246, R247). -/
  | prefilling
  /-- Ready, or riding a pail. -/
  | decoding
  deriving DecidableEq, Repr

/-- A stream (R267, R268) with what the ladle keeps of it. -/
structure Stream where
  queue : QueueId := 0
  cmdId : BitVec 16 := 0
  cust : Fin 4096 := 0
  phase : Phase := .awaitPrefill
  promptLen : Nat := 0
  /-- Its prompt is being read (R323), and the prompt once read. -/
  promptDue : Bool := false
  /-- Messages of the prompt read that have not come through the host port yet (R319, R323). -/
  promptTrips : Nat := 0
  prompt : List Word32 := []
  limit : Nat := 0
  lc : Nat := 0
  g0 : Nat := 0
  pages : List PageEntry := []
  reserved : Nat := 0
  variant : BitVec 16 := 0xFFFF
  topK : Nat := 1
  invTemp : Word32 := 0
  topP : Word32 := 0
  seed : Word64 := 0
  maxNew : Nat := 0
  stops : List Word32 := []
  newTokens : Nat := 0
  lastToken : Word32 := 0
  fetchTick : Nat := 0
  entryTick : Nat := 0
  readyTick : Nat := 0
  /-- The pail and slot it rides. -/
  seat : Option (Nat × Nat) := none
  /-- Drafts in its current pass (R41) and its draft buffer (R273). -/
  drafts : List Word32 := []
  draftBuf : List Word32 := []
  /-- The draft stream of a target, and the target of a draft stream (R273). -/
  draft : Option (VatId × StreamId) := none
  target : Option (VatId × StreamId) := none
  /-- The submission entry that it came from, while it waits for its first pail (R301 LADLE). -/
  entry : List Byte := []
  /-- The token that the pass under way takes as input (R273). -/
  passToken : Word32 := 0
  /-- A draft stream whose next commit belongs to a pass begun before the latest rewind (R273). -/
  stale : Bool := false
  /-- The first completion has been written. -/
  announced : Bool := false
  /-- Asked to skim, by the CMD_ID of a SKIM entry when the host asked (R140, R325). -/
  skimAsked : Option (Option (BitVec 16)) := none
  skimming : Bool := false
  restoring : Bool := false
  skimSlots : List Nat := []
  /-- The pages that a restore under way has taken (R141). -/
  incoming : List PageEntry := []
  /-- The tick since which it is idle, and the ticks of KV_CONF.SKIM_IDLE then (R52, R140). -/
  idleSince : Nat := 0
  idleTicks : Nat := 0
  /-- The pail that it rides has been filled for a pass whose commit is still to come (R273). -/
  inPass : Bool := false
  /-- The positions below this one have been mirrored to the standby (R138). -/
  mirrored : Nat := 0
  /-- Prefill: positions done and those of the pass under way, hand-offs complete (layer and tick), hand-off rewrites to wait for
  (R246 to R248). -/
  prefilled : Nat := 0
  chunk : Nat := 0
  handoffs : List (Nat × Nat) := []
  rewrites : List Nat := []
  /-- The ticks at which its first pass entered each stage (R248). -/
  stageEntries : List (Nat × Nat) := []
  firstPass : Bool := true
  /-- A fresh write at the limit was suppressed; the stream ends with LENGTH (R134). -/
  atLimit : Bool := false
  /-- It has ended and only its held completion remains (R327). -/
  ended : Bool := false
  deriving DecidableEq, Repr

/-- Why the loader refuses an ingot, as it names it: the version, a size or an exact parameter by its place in R182's order (R183), a region
(R188, R345), the seam (R20), a KV-bearing stage (R117), a span of a stage (R70), a core whose weight boundary lies above LINE0 (R117), a
router whose tables break R147 or R152, an item of a segment, a write into a core with the status that it completes with (R57, R67, R83),
the digest of a segment or the signature (R357). -/
inductive LoadRefusal where
  | major | minor
  | size (i : Nat)
  | exact (i : Nat)
  | shift
  | region (r : Region)
  | stageCore (stage : Nat)
  | seam
  | kvLayout (stage : Nat)
  | span (stage i : Nat)
  | boundary (c : CoreId)
  | tables (r : RouterId)
  | item (segment i : Nat)
  | access (c : CoreId) (addr : Nat) (status : Status)
  | digest (segment : Nat)
  | signature
  | unsigned
  deriving DecidableEq, Repr

/-- A press (R237): the slice of its vat's press copy, in bytes, as the loader wrote it; the pinned tail, in its SRAM; the tile that its
array holds and the one that loads behind it, by their places in the slice. -/
structure Press where
  slice : Nat := 0
  sram : List Byte := []
  tile : Option Nat := none
  next : Option Nat := none
  deriving DecidableEq, Repr

/-- A pail of the ring (R38, R39). -/
structure Pail where
  slots : List (Option StreamId) := [none, none, none, none]
  /-- It carries a speculating stream (R39). -/
  speculating : Bool := false
  /-- The ladle has filled it and waits for the header's acknowledgement (R272); the beat in which it was filled. -/
  headerWait : Bool := false
  filledAt : Option Nat := none
  /-- Commits of its pass still to be reported. -/
  commitsDue : List StreamId := []
  /-- The header written for it (R123). -/
  header : List Byte := []
  deriving DecidableEq, Repr

/-- What a RESETTING vat is doing (R262, R263). -/
inductive Wiping where
  | none | reset | release
  deriving DecidableEq, Repr

/-- A vat's state beside its registers (R257). -/
structure Vat where
  /-- The placement loaded or being loaded (R358), its segments landed, and its digests passed. -/
  ingot : Option IngotTable := none
  landed : List Nat := []
  /-- The stack ranges that the load has written, address and bytes (R312). -/
  stackWrites : List (Nat × Nat) := []
  placed : Bool := false
  /-- The beat gate (R44): ticks since the edge, slips in this beat, no more edges, the tick last evaluated. -/
  elapsed : Nat := 0
  slipRun : Nat := 0
  gateOff : Bool := false
  /-- A slip has passed the limit and is not yet reported: its tick (R46). -/
  slipDue : Option Nat := none
  /-- The last remote write of the inbound pail has arrived in this beat (R308). -/
  inbound : Bool := false
  gateTick : Option Nat := none
  /-- Beat edges so far, for the pass of each pail round the ring. -/
  edges : Nat := 0
  done : List Nat := []
  /-- Every core of the vat, listed or not, has had thread 0 started (R186). -/
  live : Bool := false
  /-- The command whose commit took effect and which is to be carried out (R260). -/
  cmd : BitVec 3 := 0
  /-- A fault is recorded and the stop comes at the next tick (R199 step 4); due once that tick has come. -/
  stopWait : Bool := false
  stopDue : Bool := false
  /-- The first report came from the fencing of hardware (R361). -/
  hwStop : Bool := false
  wiping : Wiping := .none
  cursor : Nat := 0
  credits : KMap QueueId Nat := []
  streams : KMap StreamId Stream := []
  pails : KMap Nat Pail := []
  /-- The streams of the prefill pass in progress (R242). -/
  pass : Option (List StreamId) := none
  /-- Reads of the presses for the pass that are still on their way (R252), and the groups whose hand-offs are not complete (R246). -/
  passTrips : Nat := 0
  groups : List (List StreamId) := []
  /-- The presses that hold their slices of the vat's press copy (R241). -/
  copied : List (Fin 96) := []
  /-- Why the loader has refused the last ingot for this vat, none where it has not (R70, R117, R183, R345). -/
  loadReport : Option LoadRefusal := none
  /-- What the load under way has written beside memories, for its undoing (R312): registers, and routers whose shadows it wrote. -/
  regWrites : List Reg := []
  tableWrites : List RouterId := []
  /-- Budget window: start tick and length in ticks (R52, R269). -/
  winStart : Nat := 0
  winLen : Nat := 0
  /-- The press copy has lost granules during a pass: PAUSE is set when the pass ends (R255). -/
  pressStale : Bool := false
  /-- A core of the vat is being retired: the warden commits RESET once the vat has stopped and been handed over (R365). -/
  reload : Bool := false
  /-- The vat is mirrored by nobody: it runs ALONE (R362). -/
  alone : Bool := false
  /-- It changed owner, or was mirrored by nobody, and has not been copied since: this module cannot take it over (R305). -/
  unsynced : Bool := false
  /-- Handed over: admissions and deliveries stopped until every COMMIT is acknowledged (R305). -/
  handing : Bool := false
  deriving DecidableEq, Repr

/-- A fetched entry that the ladle has not yet acted on, with the tick of its fetch. -/
structure Fetched where
  bytes : List Byte
  tick : Nat
  /-- The stream number given to a request when it is fetched (R267). -/
  num : Option StreamId := none
  deriving DecidableEq, Repr

/-- A queue pair beside its registers (R320, R321, R329). -/
structure QPair where
  sqTail : Nat := 0
  cqHead : Nat := 0
  fetched : List Fetched := []
  /-- The coalescing window: its start tick and ticks, and whether a completion waits for its end. -/
  window : Option (Nat × Nat) := none
  waiting : Bool := false
  /-- Completions held while the queue is full or its port down, in the order of their commits (R327, R328). -/
  held : List (Option (VatId × StreamId) × Completion) := []
  deriving DecidableEq, Repr

/-- A counter beside its VAT_CTR words: rounds completed and the words the loader last wrote (R171, R177). -/
structure Ctr where
  rounds : Nat := 0
  loaded0 : Word64 := 0
  loaded1 : Word64 := 0
  deriving DecidableEq, Repr

/-- A customer beside its registers: the budget in force in the window, and whether the window is counted as exhausted (R269, R281). -/
structure Cust where
  eff : Word32 := 0
  hit : Bool := false
  /-- The window before: its budget in force, the BALANCE at its end and whether it is counted as exhausted (R269). -/
  lastEff : Word32 := 0
  last : Word32 := 0
  lastHit : Bool := false
  deriving DecidableEq, Repr

/-- A fault report on its way to the record (R199). -/
structure FaultReport where
  vat : VatId
  status : Status
  lx : Nat := 0
  ly : Nat := 0
  thread : Nat := 0
  pc : Nat := 0
  source : Bool := false
  tick : Nat := 0
  /-- It comes from the fencing of hardware (R361). -/
  hardware : Bool := false
  deriving DecidableEq, Repr

/-- A recipe report on its way to the recipe table (R111). -/
structure RecipeReport where
  vat : VatId
  core : CoreId
  tag : BitVec 12
  cause : Fin 4
  tick : Nat
  deriving DecidableEq, Repr

/-- What has gone onto a link's wire: a packet's cells, or a control cell (R286, R287). -/
inductive Sent where
  | packet (p : Packet)
  | control (i : ControlInfo)
  deriving DecidableEq, Repr

/-- The receiving and sending sides of a device link (R285 to R293). -/
structure Link where
  /-- The packet being framed and its payload so far (R287, R288). -/
  opened : Option Packet := none
  body : List Byte := []
  /-- Packets received that have come to where their commands take them. -/
  rx : List Packet := []
  /-- Frames of the receiver's 2,048 in use, and frames freed whose credits the next control cell returns (R292). -/
  rxFrames : Nat := 0
  owed : Nat := 0
  /-- Packets sent and not acknowledged, what has gone onto the wire, and the cells since the last regular control cell (R286). -/
  replay : List Packet := []
  sent : List Sent := []
  cells : Nat := 0
  /-- Packets moved here from a dead link, which go ahead of the link's own queue (R291). -/
  ahead : List Packet := []
  lseqOut : BitVec 16 := 0
  lseqIn : BitVec 16 := 0
  /-- A replay has been asked for and has not begun; the last head cell seen since then, as rerouted or not and LSEQ; how often the packet
  expected has failed; the dead link whose packets are arriving here (R290, R291). -/
  askReplay : Bool := false
  lastSeen : Option (Bool × BitVec 16) := none
  rxFails : Nat := 0
  rerouted : Option LinkId := none
  /-- A replay request received, and how often its packet has failed. -/
  replayReq : Option (BitVec 16) := none
  fails : Nat := 0
  framesUsed : Nat := 0
  lanesDead : List (Fin 18) := []
  lanesShort : Nat := 0
  /-- The spare lanes in use. -/
  sparesIn : List (Fin 18) := []
  tickLocked : Bool := false
  deriving DecidableEq, Repr

/-- What the standby holds of a stream (R301): the commits applied, those that wait for their records, and the records that have come and
are not yet applied, each with stage, position and head. -/
structure MirrorRec where
  info : MirrorStream
  lc : Nat := 0
  applied : List MirrorCommit := []
  waiting : List MirrorCommit := []
  kv : List ((Nat × Nat × Nat) × List Byte) := []
  deriving DecidableEq, Repr

/-- A completion that waits for the standby's acknowledgement of a COMMIT, or behind one that does; a COMMIT of the copy that SYNCING makes
has none (R300, R301). -/
structure Unacked where
  queue : QueueId
  who : Option (VatId × StreamId)
  lc : Nat
  acked : Bool
  /-- The bytes of fresh records that the COMMIT covers (R302). -/
  bytes : Nat
  comp : Option Completion
  deriving DecidableEq, Repr

/-- Ladle state as mirrored (R301 LADLE). -/
structure LadleRec where
  cursor : Nat := 0
  credits : KMap QueueId Nat := []
  balances : KMap (Fin 4096) Word32 := []
  /-- Fetched entries not yet admitted: queue, bytes and fetch tick. -/
  entries : List (QueueId × List Byte × Nat) := []
  deriving DecidableEq, Repr

/-- Twin state beside its registers (R300 to R306). -/
structure Twin where
  /-- COMMITs sent and not acknowledged, each with the completion that waits for it. -/
  unacked : List Unacked := []
  recs : KMap (VatId × StreamId) MirrorRec := []
  fills : KMap (VatId × Nat) (List StreamId) := []
  /-- The pail of each vat's latest FILL, and the streams that have ended, whose last tokens may not have been delivered (R304). -/
  lastFill : KMap VatId Nat := []
  ends : List (VatId × MirrorRec × Status) := []
  ladles : KMap VatId LadleRec := []
  /-- The vats that start here at the next tick (R304). -/
  taking : List VatId := []
  /-- A TWIN_CTRL.CMD written and not yet applied, and whether its tick has come. -/
  cmd : BitVec 2 := 0
  cmdDue : Bool := false
  failSeen : Bool := false
  /-- Bytes of fresh records in the mirror staging (R302). -/
  staging : Nat := 0
  deriving DecidableEq, Repr

/-- Power, clocks, flash and pins beside the PWR_ registers. -/
structure Power where
  /-- The last off followed a power-fail warning or a loss of input (R341); a module reset runs until the start that follows it has
  ended (R335); the warning's cause; SMB_ALERT_N released (R388); straps; the test header (R389); firmware blocks (R335). -/
  prevFail : Bool := false
  resetActive : Bool := false
  lastWarn : Option FailCause := none
  alertReleased : Bool := false
  straps : BitVec 2 := 3
  tapOp : TapOp := .bypass
  tapCells : Word64 := 0
  fwBuf : List Byte := []
  /-- The warden's count of SMBus writes with a wrong PEC (R334). -/
  smbusErrors : Nat := 0
  /-- FAIL goes out with the shutdown under way; a module reset is asked for; the flash holds a defect map; the start under way has
  passed its neighbour test (R353, R355, R341, R339). -/
  tellTwin : Bool := false
  resetAsked : Bool := false
  mapStored : Bool := false
  tested : Bool := false
  /-- Wake sequencers (R346): requests with their tick, per half. -/
  wakeNorth : List (Nat × Region) := []
  wakeSouth : List (Nat × Region) := []
  powering : List Region := []
  offPending : List Region := []
  /-- Aborted power-ups waiting their 1 ms, and regions that have aborted once (R373). -/
  aborted : List Region := []
  abortedOnce : List Region := []
  confirm : List Region := []
  /-- Regions that need a full relock, and regions whose clock is relocking (R349). -/
  needRelock : List Region := []
  relocking : List Region := []
  /-- Fenced regions (R36, R367), and stopped halves (R21, R364) with the ticks of their faults and the hour's ticks then (R52). -/
  fenced : List Region := []
  halvesDown : List Half := []
  halfFaults : List (Half × Nat × Nat) := []
  halvesLeftOff : List Half := []
  supplyTicks : List (Group × Nat × Nat) := []
  restarting : List Group := []
  /-- Cores moved to spares by the remap (R14), and retired cores. -/
  remap : List (CoreId × RouterId) := []
  /-- Retired counter stores and rim ports; a moved store uses column 32c + 16 (R168, R28). -/
  storesRetired : List (Half × Fin 16) := []
  storesMoved : List (Half × Fin 16) := []
  rimPortsRetired : List (Fin 128) := []
  /-- What the flash keeps of the log and the fault records across a start (R339, R353). -/
  parked : KMap Reg Word64 := []
  deriving DecidableEq, Repr

/-- Thermal control beside the THERM_ registers (R374 to R380). -/
structure Thermal where
  limit : KMap Region Nat := []
  /-- The regions that have lent a region a step (R180). -/
  lent : KMap Region (List Region) := []
  /-- Consecutive throttled windows of a region, and windows of a vat without throttling. -/
  hotWindows : KMap Region Nat := []
  calmWindows : KMap VatId Nat := []
  capped : List Region := []
  droopCap : List Region := []
  /-- The thermal window under way: its first tick and its ticks (R52, R375). -/
  window : Option (Nat × Nat) := none
  coolantLogged : Bool := false
  deriving DecidableEq, Repr

/-- The host ports and MSI-X (R315, R328, R329). In OFF no link is up. -/
structure HostSt where
  eastDown : Bool := true
  westDown : Bool := true
  msixPending : List (HostPort × Nat) := []
  /-- The MSI-X table in BAR2: address, and data with vector control, of the vectors whose entry is not zero (R315; log entry 99). -/
  msixTable : KMap (HostPort × Fin 2048) (Word64 × Word64) := []
  deriving DecidableEq, Repr

/-- A pending set of a commit group (R53): the copied shadows, and the tick that has made it due. -/
structure Staged where
  vals : List (Reg × Word64) := []
  due : Option Nat := none
  deriving DecidableEq, Repr

/-- The state of the module. -/
structure State where
  /-- Commands waiting, first in, first out. -/
  pending : List Instr := []
  /-- BAR0 registers that have been written; TK fields hold the committed value. -/
  regs : KMap Reg Word64 := []
  /-- Shadows of TK fields (R53). -/
  shadow : KMap Reg Word64 := []
  staged : KMap (Option VatId) Staged := []
  meshStaged : KMap VatId MeshSet := []
  /-- Tick numbers of the halves (R34) and whether their generators run (R31, R33). -/
  tickNorth : Nat := 0
  tickSouth : Nat := 0
  runNorth : Bool := false
  runSouth : Bool := false
  cores : KMap CoreId Core := []
  routers : KMap RouterId Router := []
  seams : KMap (Fin 16) SeamPort := []
  rims : KMap (Fin 128) RimPort := []
  /-- The NOTIFY jobs of each counter store, the first one being sent (R174); the vat of each physical counter in use, by half and
  index (R168, R172). -/
  notifies : KMap (Half × Fin 16) (List NotifyJob) := []
  ctrVat : KMap (Half × Nat) VatId := []
  scheds : KMap (SharedPort × Bool) Sched := []
  /-- The link of each flow (SRC_DEV, SRC_VAT, DST_DEV, DST_VAT) that has sent packets (R294). -/
  flows : KMap (BitVec 16 × VatId × BitVec 16 × VatId) LinkId := []
  vats : KMap VatId Vat := []
  queues : KMap QueueId QPair := []
  ctrs : KMap (VatId × Vid) Ctr := []
  custs : KMap (Fin 4096) Cust := []
  links : KMap LinkId Link := []
  twin : Twin := {}
  stackMem : Mem := []
  /-- Bytes of an ingot that came in LOAD packets, by their offset in the ingot (R311). -/
  tree : Mem := []
  /-- Words of the memory stacks with a single-bit or a double-bit error, and double-bit errors returned, as stack and channel, word, tick
  and the hour's ticks (R52, R254, R255). -/
  stackSingle : List Nat := []
  stackDouble : List Nat := []
  stackLog : List (Nat × Nat × Nat × Nat) := []
  presses : KMap (Fin 96) Press := []
  pow : Power := {}
  therm : Thermal := {}
  host : HostSt := {}
  reports : List FaultReport := []
  recipes : List RecipeReport := []
  /-- Messages sent out of the module, oldest first. -/
  out : List Out := []
  /-- The bytes the last SMBus block read returned (R335). -/
  smbus : List Byte := []
  /-- The model's own counters: order stamps, and fresh free values. -/
  seq : Nat := 1
  freeCtr : Nat := 0
  deriving DecidableEq, Repr

/-- The module right after reset (R336): OFF, every register at its reset value, nothing listed, no command waiting. -/
def State.reset : State := {}

end Sys2Proof.Machine
end

