-- ==== Sys2Proof/Machine/Map.lean ====
section
/-! DEFINITION. Tables by key and byte memory: reading, writing, and the canonical form of a memory. -/

namespace Sys2Proof.Machine

/-- What a table holds for a key, none when the key is not listed. -/
def kfind {κ α : Type} [DecidableEq κ] : KMap κ α → κ → Option α
  | [], _ => none
  | (k, v) :: m, x => if k = x then some v else kfind m x

/-- What a table reads as for a key, with the table's default. -/
def kget {κ α : Type} [DecidableEq κ] (d : α) (m : KMap κ α) (x : κ) : α := (kfind m x).getD d

/-- A table with a key unlisted. -/
def kdel {κ α : Type} [DecidableEq κ] (m : KMap κ α) (x : κ) : KMap κ α := m.filter (fun p => p.1 ≠ x)

/-- A table with a key's value replaced. -/
def kset {κ α : Type} [DecidableEq κ] (m : KMap κ α) (x : κ) (v : α) : KMap κ α := (x, v) :: kdel m x

/-- One byte of memory; an address not listed reads 0 (log entry 2). -/
def memGet : Mem → Nat → Byte
  | [], _ => 0
  | (a, b) :: m, x => if a = x then b else memGet m x

/-- Memory with one byte written, in canonical form. -/
def memSet : Mem → Nat → Byte → Mem
  | [], x, v => if v = 0 then [] else [(x, v)]
  | (a, b) :: m, x, v =>
    if x < a then (if v = 0 then (a, b) :: m else (x, v) :: (a, b) :: m)
    else if x = a then (if v = 0 then m else (x, v) :: m)
    else (a, b) :: memSet m x v

/-- The canonical form: addresses strictly rising, no byte equal to what an unlisted address reads as. -/
def memWf : Mem → Bool
  | [] => true
  | [(_, b)] => b != 0
  | (a, b) :: (c, d) :: m => (b != 0) && (a < c) && memWf ((c, d) :: m)

/-- n bytes from an address upward. -/
def memBytes (m : Mem) (a : Nat) : Nat → List Byte
  | 0 => []
  | n + 1 => memGet m a :: memBytes m (a + 1) n

/-- The little-endian number of n bytes. -/
def memNat (m : Mem) (a n : Nat) : Nat := (memBytes m a n).foldr (fun b acc => b.toNat + 256 * acc) 0

/-- Bytes written from an address upward. -/
def memPut (m : Mem) (a : Nat) : List Byte → Mem
  | [] => m
  | b :: bs => memPut (memSet m a b) (a + 1) bs

/-- Every byte from lo up to and not including hi cleared. -/
def memClear (m : Mem) (lo hi : Nat) : Mem := m.filter (fun c => c.1 < lo || hi ≤ c.1)

end Sys2Proof.Machine
end

