-- ==== Sys2Proof/Config.lean ====
section
/-! DEFINITION. What one module fixes, and the free values: constants without a body that stand for what the
spec leaves open. No proof can see what they are. -/

namespace Sys2Proof.Config

/-- R330: GLB_ID.SERIAL is 'per module'. -/
opaque serial : BitVec 32

/-- R105: which of the values within one unit in the last place exp2 returns for an operand
(log entry 3): 0, 1 and 2 choose below, at and above. -/
opaque exp2Pick : Word32 → Fin 3

/-- R105: the same choice for the reciprocal (log entry 3). -/
opaque rcpPick : Word32 → Fin 3

/-- R105: the same choice for the reciprocal square root (log entry 3). -/
opaque rsqrtPick : Word32 → Fin 3

/-- R130: the same choice for the cosine of a 48-bit phase (log entry 3). -/
opaque cosPick : BitVec 48 → Fin 3

/-- R130: the same choice for the sine of a 48-bit phase (log entry 3). -/
opaque sinPick : BitVec 48 → Fin 3

/-- R294: the hash of (SRC_DEV, SRC_VAT, DST_DEV, DST_VAT) that picks a link of a mask (log entry 4). -/
opaque flowHash : Nat → Nat → Nat → Nat → Nat

/-- R374: the predicted temperature 8 ms ahead, in 0.5 degree units, from the highest sensor, the step, DUTY
and the coolant inlet temperature (log entry 5). -/
opaque predict : Nat → Nat → Nat → Nat → Nat

/-- R374: the model's temperature that stands in for an ignored sensor (log entry 5). -/
opaque modelTemp : Nat → Nat → Nat → Nat

/-- R377: the hold target, the temperature the model gives for a DUTY at a REQ_STEP (log entry 5). -/
opaque holdTarget : Nat → Nat → Nat

/-- R377: whether the ramp bound of 2 degrees per second holds back, at a tick, the raising of a region's thermal limit (log entry 5). -/
opaque rampHeld (region tick : Nat) : Bool

/-- R238, R239: element i, in FP32, of the key of a head at a position of a layer before its rotation, as the presses compute it: it
depends only on the ingot, the prompt and the position at which the chunk starts (log entry 17). -/
opaque pressKey (ingot : Nat) (prompt : List Word32) (start layer pos head i : Nat) : Word32

/-- R238, R239: the same of the value (log entry 17). -/
opaque pressVal (ingot : Nat) (prompt : List Word32) (start layer pos head i : Nat) : Word32

/-- A fresh free value, applied to the model's own counter State.freeCtr (log entry 6). -/
opaque freeWord : Nat → Word64

end Sys2Proof.Config
end

