-- ==== Sys2Proof/Machine/Bits.lean ====
section
/-! DEFINITION. Bit fields, byte order and sign extension (R5). -/

namespace Sys2Proof.Machine

/-- Bits [hi:lo] of a word, as a number. -/
def fld {n : Nat} (w : BitVec n) (hi lo : Nat) : Nat := w.toNat / 2 ^ lo % 2 ^ (hi - lo + 1)

/-- Bit i of a word. -/
def bitAt {n : Nat} (w : BitVec n) (i : Nat) : Bool := w.toNat / 2 ^ i % 2 == 1

/-- The word with bits [hi:lo] replaced by the low bits of v. -/
def putFld (w : Word64) (hi lo v : Nat) : Word64 :=
  w64 (w.toNat / 2 ^ (hi + 1) * 2 ^ (hi + 1) + v % 2 ^ (hi - lo + 1) * 2 ^ lo + w.toNat % 2 ^ lo)

/-- A mask with ones in bits [hi:lo]. -/
def maskOf (hi lo : Nat) : Nat := (2 ^ (hi - lo + 1) - 1) * 2 ^ lo

/-- n bytes of a number, least significant first (R5). -/
def leBytes : Nat → Nat → List Byte
  | 0, _ => []
  | n + 1, v => BitVec.ofNat 8 v :: leBytes n (v / 256)

/-- The number that bytes spell, least significant first (R5). -/
def ofLe : List Byte → Nat
  | [] => 0
  | b :: bs => b.toNat + 256 * ofLe bs

/-- Bytes i to i + n − 1 of a list, as a number. -/
def leAt (bs : List Byte) (i n : Nat) : Nat := ofLe ((bs.drop i).take n)

/-- A 64-bit word from an n-bit number, sign-extended when asked. -/
def extend (bits : Nat) (signed : Bool) (v : Nat) : Word64 :=
  if signed && (v / 2 ^ (bits - 1) % 2 == 1) then w64 (v % 2 ^ bits + (2 ^ 64 - 2 ^ bits)) else w64 (v % 2 ^ bits)

/-- A counter that saturates at 2^bits − 1. -/
def satAdd (bits v d : Nat) : Nat := min (v + d) (2 ^ bits - 1)

/-- ceil(a ÷ b). -/
def ceilDiv (a b : Nat) : Nat := (a + b - 1) / b

/-- The indices 0 to n − 1, ascending. -/
def upTo : Nat → List Nat
  | 0 => []
  | n + 1 => upTo n ++ [n]

/-- Every element of Fin n, ascending. -/
def finsFrom (n : Nat) : Nat → List (Fin n)
  | 0 => []
  | k + 1 => if h : n - (k + 1) < n then ⟨n - (k + 1), h⟩ :: finsFrom n k else finsFrom n k

/-- All of Fin n, ascending. -/
def allFin (n : Nat) : List (Fin n) := finsFrom n n

/-- A number as an element of Fin n, when it is one. -/
def toFin? (n v : Nat) : Option (Fin n) := if h : v < n then some ⟨v, h⟩ else none

end Sys2Proof.Machine
end

