-- ==== Sys2Proof/Machine/RegMap.lean ====
section
/-! DEFINITION. The register map: offsets (R318, R319), reset values and access codes (R6) of every register. -/

namespace Sys2Proof.Machine

/-- The offset of a vat register from its window's base (R319). -/
def vatRegOff : VatReg → Nat
  | .vatCtrl => 0x000
  | .vatStatus => 0x008
  | .vatCommit => 0x010
  | .vatBeat => 0x018
  | .vatSlip => 0x020
  | .vatRegions w => 0x028 + 8 * w
  | .vatLadle => 0x040
  | .vatLend => 0x048
  | .vatPrefill => 0x050
  | .vatPressBase => 0x058
  | .vatPrefillStat => 0x060
  | .vatIrq => 0x068
  | .vatFault w => 0x070 + 8 * w
  | .meshCommit => 0x080
  | .meshStatus => 0x088
  | .kvConf => 0x0C0
  | .kvLimit => 0x0C8
  | .kvQkScale => 0x0D0
  | .kvListbase => 0x0D8
  | .kvSkimbase => 0x0E0
  | .kvRot => 0x0E8
  | .linkStackwin => 0x100
  | .linkTimeout => 0x108
  | .linkChain => 0x110
  | .kvStage n => 0x1000 + 8 * n
  | .kvRotFreq i => 0x1800 + 8 * i
  | .linkPeer e => 0x1C00 + 8 * e
  | .recipeSummary m => 0x1E00 + 8 * m
  | .kvSeq n => 0x2000 + 8 * n
  | .syncMap i => 0x8000 + 8 * i
  | .ctr i w => 0x10000 + 16 * i + 8 * w
  | .recipe n w => 0x20000 + 16 * n + 8 * w

/-- The BAR0 byte offset of a register (R318). -/
def regOff : Reg → Nat
  | .glbId => 0x0
  | .glbIrq => 0x8
  | .glbEventWr => 0x10
  | .glbEvent e w => 0x100 + 16 * e + 8 * w
  | .glbPress n => 0x2000 + 8 * n
  | .glbStack n => 0x2400 + 8 * n
  | .stackShare s w => 0x2800 + 64 * s + 8 * w
  | .pcieShare p w => 0x3000 + 64 * p + 8 * w
  | .tickPeriod => 0x10000
  | .tickCommit => 0x10008
  | .tickCount => 0x10010
  | .tickLead n => 0x10800 + 8 * n
  | .meshRegionStat n => 0x20000 + 8 * n
  | .meshSeam n => 0x20800 + 8 * n
  | .meshShare p w => 0x21000 + 64 * p + 8 * w
  | .linkId => 0x30000
  | .twinCtrl => 0x30008
  | .twinCmdMask => 0x30010
  | .twinOwner => 0x30018
  | .twinStatus => 0x30020
  | .linkCtrl l => 0x31000 + 32 * l
  | .linkStatus l => 0x31008 + 32 * l
  | .linkStat l => 0x31010 + 32 * l
  | .linkRoute i w => 0x32000 + 16 * i + 8 * w
  | .linkShare l w => 0x34000 + 64 * l + 8 * w
  | .que n => 0x40000 + 8 * n
  | .queSq n w => 0x50000 + 16 * n + 8 * w
  | .queCq n w => 0x60000 + 16 * n + 8 * w
  | .ladleQStat n => 0x70000 + 8 * n
  | .ladleCust c w => 0x80000 + 16 * c + 8 * w
  | .ladleVariant v w => 0x90000 + 16 * v + 8 * w
  | .thermRegion n => 0xA0000 + 8 * n
  | .thermCtrl => 0xA0800
  | .thermStatus => 0xA0808
  | .thermWarm w => 0xA0820 + 8 * w
  | .thermVat v => 0xA0900 + 8 * v
  | .pwrState => 0xB0000
  | .pwrCtrl => 0xB0008
  | .pwrWake h => 0xB0010 + 8 * h
  | .pwrMap => 0xB0020
  | .pwrRegion n => 0xB1000 + 8 * n
  | .pwrGroup g => 0xB2000 + 8 * g
  | .pwrDefect i => 0xB4000 + 8 * i
  | .assayStatus => 0xC0000
  | .assayPolicy => 0xC0008
  | .vat v r => 0x1000000 + 0x40000 * v + vatRegOff r

/-- An array of n registers, stride bytes apart from base on: the index that an offset names. -/
def arrAt (n base stride off : Nat) : Option (Fin n) :=
  if base ≤ off ∧ (off - base) % stride = 0 then toFin? n ((off - base) / stride) else none

/-- The same for registers of two words, 16 bytes apart. -/
def pairAt (n base off : Nat) : Option (Fin n × Fin 2) :=
  if base ≤ off ∧ (off - base) % 8 = 0 then
    (toFin? n ((off - base) / 16)).map (fun i => (i, if (off - base) % 16 = 0 then 0 else 1))
  else none

/-- The same for arrays of eight words, 64 bytes apart. -/
def octAt (n base off : Nat) : Option (Fin n × Fin 8) :=
  if base ≤ off ∧ (off - base) % 8 = 0 then
    (toFin? n ((off - base) / 64)).bind (fun i => (toFin? 8 ((off - base) % 64 / 8)).map (fun w => (i, w)))
  else none

/-- The vat register at a window offset, none where R319 names none. -/
def vatRegAt (o : Nat) : Option VatReg :=
  if o = 0x000 then some .vatCtrl else if o = 0x008 then some .vatStatus else if o = 0x010 then some .vatCommit
  else if o = 0x018 then some .vatBeat else if o = 0x020 then some .vatSlip
  else if o = 0x040 then some .vatLadle else if o = 0x048 then some .vatLend else if o = 0x050 then some .vatPrefill
  else if o = 0x058 then some .vatPressBase else if o = 0x060 then some .vatPrefillStat
  else if o = 0x068 then some .vatIrq else if o = 0x070 then some (.vatFault 0) else if o = 0x078 then some (.vatFault 1)
  else if o = 0x080 then some .meshCommit else if o = 0x088 then some .meshStatus
  else if o = 0x0C0 then some .kvConf else if o = 0x0C8 then some .kvLimit else if o = 0x0D0 then some .kvQkScale
  else if o = 0x0D8 then some .kvListbase else if o = 0x0E0 then some .kvSkimbase else if o = 0x0E8 then some .kvRot
  else if o = 0x100 then some .linkStackwin else if o = 0x108 then some .linkTimeout
  else if o = 0x110 then some .linkChain
  else ((arrAt 3 0x028 8 o).map VatReg.vatRegions)
    <|> ((arrAt 256 0x1000 8 o).map VatReg.kvStage)
    <|> ((arrAt 128 0x1800 8 o).map VatReg.kvRotFreq)
    <|> ((arrAt 16 0x1C00 8 o).map VatReg.linkPeer)
    <|> ((arrAt 64 0x1E00 8 o).map VatReg.recipeSummary)
    <|> ((arrAt 1024 0x2000 8 o).map VatReg.kvSeq)
    <|> ((arrAt 4096 0x8000 8 o).map VatReg.syncMap)
    <|> ((pairAt 4096 0x10000 o).map (fun p => VatReg.ctr p.1 p.2))
    <|> ((pairAt 4096 0x20000 o).map (fun p => VatReg.recipe p.1 p.2))

/-- The register at a BAR0 offset, none where the map names none (R316, R318). -/
def regAt (o : Nat) : Option Reg :=
  if 0x1000000 ≤ o then
    (toFin? 64 ((o - 0x1000000) / 0x40000)).bind
      (fun v => (vatRegAt ((o - 0x1000000) % 0x40000)).map (Reg.vat v))
  else if o = 0x0 then some .glbId else if o = 0x8 then some .glbIrq else if o = 0x10 then some .glbEventWr
  else if o = 0x10000 then some .tickPeriod else if o = 0x10008 then some .tickCommit
  else if o = 0x10010 then some .tickCount else if o = 0x30000 then some .linkId
  else if o = 0x30008 then some .twinCtrl else if o = 0x30010 then some .twinCmdMask
  else if o = 0x30018 then some .twinOwner else if o = 0x30020 then some .twinStatus
  else if o = 0xA0800 then some .thermCtrl else if o = 0xA0808 then some .thermStatus
  else if o = 0xB0000 then some .pwrState else if o = 0xB0008 then some .pwrCtrl
  else if o = 0xB0020 then some .pwrMap else if o = 0xC0000 then some .assayStatus
  else if o = 0xC0008 then some .assayPolicy
  else ((pairAt 256 0x100 o).map (fun p => Reg.glbEvent p.1 p.2))
    <|> ((arrAt 96 0x2000 8 o).map Reg.glbPress)
    <|> ((arrAt 24 0x2400 8 o).map Reg.glbStack)
    <|> ((octAt 24 0x2800 o).map (fun p => Reg.stackShare p.1 p.2))
    <|> ((octAt 2 0x3000 o).map (fun p => Reg.pcieShare p.1 p.2))
    <|> ((arrAt 192 0x10800 8 o).map Reg.tickLead)
    <|> ((arrAt 192 0x20000 8 o).map Reg.meshRegionStat)
    <|> ((arrAt 16 0x20800 8 o).map Reg.meshSeam)
    <|> ((octAt 176 0x21000 o).map (fun p => Reg.meshShare p.1 p.2))
    <|> ((arrAt 36 0x31000 32 o).map Reg.linkCtrl)
    <|> ((arrAt 36 0x31008 32 o).map Reg.linkStatus)
    <|> ((arrAt 36 0x31010 32 o).map Reg.linkStat)
    <|> ((pairAt 256 0x32000 o).map (fun p => Reg.linkRoute p.1 p.2))
    <|> ((octAt 36 0x34000 o).map (fun p => Reg.linkShare p.1 p.2))
    <|> ((arrAt 4096 0x40000 8 o).map Reg.que)
    <|> ((pairAt 4096 0x50000 o).map (fun p => Reg.queSq p.1 p.2))
    <|> ((pairAt 4096 0x60000 o).map (fun p => Reg.queCq p.1 p.2))
    <|> ((arrAt 4096 0x70000 8 o).map Reg.ladleQStat)
    <|> ((pairAt 4096 0x80000 o).map (fun p => Reg.ladleCust p.1 p.2))
    <|> ((pairAt 4096 0x90000 o).map (fun p => Reg.ladleVariant p.1 p.2))
    <|> ((arrAt 192 0xA0000 8 o).map Reg.thermRegion)
    <|> ((arrAt 3 0xA0820 8 o).map Reg.thermWarm)
    <|> ((arrAt 64 0xA0900 8 o).map Reg.thermVat)
    <|> ((arrAt 2 0xB0010 8 o).map Reg.pwrWake)
    <|> ((arrAt 192 0xB1000 8 o).map Reg.pwrRegion)
    <|> ((arrAt 96 0xB2000 8 o).map Reg.pwrGroup)
    <|> ((arrAt 6144 0xB4000 8 o).map Reg.pwrDefect)

/-- The role a link has at reset (R293). -/
def defaultRole (l : Nat) : Nat :=
  if l % 9 = 0 ∧ l < 28 then 1 else if 10 ≤ l ∧ l ≤ 17 then 2 else if 28 ≤ l then 3 else 0

/-- The reset value of a register (the Reset columns; the values from flash are log entry 1's). -/
def regReset : Reg → Word64
  | .glbId => w64 (0x5C05 + 0x10000 + 0x100000 + 0x1000000 + 0x20000000 + Config.serial.toNat * 2 ^ 32)
  | .tickPeriod => 0x3E8
  | .tickLead n => w64 (n % 16)
  | .linkCtrl l => w64 (defaultRole l + 4 + 0x40 * 8)
  | .queCq _ 1 => 0x10000000
  | .thermCtrl => 0xB8BE
  | .pwrRegion _ => 0x3FCA
  | .vat _ r =>
    match r with
    | .vatBeat => 0x400
    | .vatLadle => 0x100003E8
    | .vatLend => 0xC8
    | .vatPrefill => 0x4B0
    | .meshStatus => 1
    | .kvConf => 0x2003100
    | .kvLimit => 0x10000
    | .kvQkScale => 0x3F800000
    | .linkTimeout => 0x40
    | _ => 0
  | _ => 0

/-- The bits of a register that a write sets to the value written (RW without TK). -/
def rwMask : Reg → Nat
  | .glbIrq => 0x1FFF
  | .glbPress _ => 0x7F
  | .stackShare _ _ => maskOf 63 0
  | .pcieShare _ _ => maskOf 63 0
  | .meshShare _ _ => maskOf 63 0
  | .linkShare _ _ => maskOf 63 0
  | .linkId => 0x1FFFF
  | .twinCtrl => 0x1FFFF
  | .twinCmdMask => maskOf 63 0
  | .linkCtrl _ => 0x3FFF
  | .linkRoute _ 0 => maskOf 32 0
  | .linkRoute _ 1 => maskOf 35 0
  | .que _ => maskOf 26 0
  | .queSq _ 0 => maskOf 63 0
  | .queSq _ 1 => 0x1FFFF
  | .queCq _ 0 => maskOf 63 0
  | .queCq _ 1 => maskOf 27 0 + maskOf 63 56
  | .ladleCust _ 0 => maskOf 37 0
  | .ladleVariant _ 0 => maskOf 54 0
  | .thermCtrl => 0xFFFF
  | .thermVat _ => 1
  | .pwrState => 0x10
  | .pwrRegion _ => 0x3F0F
  | .assayPolicy => 1
  | .vat _ r =>
    match r with
    | .vatRegions _ => maskOf 63 0
    | .vatLadle => maskOf 34 0
    | .vatLend => 0x1FFFF
    | .vatPrefill => maskOf 18 0
    | .vatPressBase => maskOf 35 0
    | .vatIrq => 0x1FFF
    | .kvConf => maskOf 26 0 + maskOf 63 28
    | .kvLimit => maskOf 16 0
    | .kvQkScale => maskOf 31 0
    | .kvListbase => maskOf 47 0
    | .kvSkimbase => maskOf 63 0
    | .kvRot => 0x1FF
    | .linkStackwin => maskOf 41 0
    | .linkTimeout => 0xFFFF
    | .linkChain => maskOf 45 0
    | .kvStage _ => maskOf 40 0
    | .kvRotFreq _ => maskOf 47 0
    | .linkPeer _ => maskOf 24 0
    | .syncMap _ => 0xFFFF
    | .ctr _ 0 => maskOf 32 0 + maskOf 62 34
    | .ctr _ 1 => maskOf 36 0
    | _ => 0
  | _ => 0

/-- The bits of a register that a write of 1 clears (W1C). -/
def w1cMask : Reg → Nat
  | .glbIrq => 0x10000
  | .tickCommit => 4
  | .twinStatus => 8
  | .queSq _ 1 => 0x20000
  | .ladleVariant _ 0 => maskOf 55 55
  | .vat _ r =>
    match r with
    | .vatStatus => 8
    | .vatPrefill => 0x80000
    | .vatIrq => 0xF0000
    | .meshCommit => 4
    | .kvConf => 0x8000000
    | .recipe _ 0 => 0xF
    | _ => 0
  | _ => 0

/-- The bits of a register that are staged (TK). -/
def tkMask : Reg → Nat
  | .tickPeriod => 0xFFFF
  | .tickLead _ => 0x3F
  | .vat _ .vatBeat => 0xFFF
  | .vat _ .vatCtrl => 7
  | _ => 0

/-- The register block is one of those whose writes before READY are ignored (R340). -/
def readyOnly : Reg → Bool
  | .que _ => true
  | .queSq _ _ => true
  | .queCq _ _ => true
  | .ladleQStat _ => true
  | .ladleCust _ _ => true
  | .ladleVariant _ _ => true
  | .meshRegionStat _ => true
  | .meshSeam _ => true
  | .meshShare _ _ => true
  | .vat _ r =>
    match r with
    | .linkStackwin => false
    | .linkTimeout => false
    | .linkChain => false
    | .linkPeer _ => false
    | _ => true
  | _ => false

/-- A word after a write of val under masks: W1C bits written 1 clear, RW bits take the value (R6, R7). -/
def writeWord (old val : Word64) (rw w1c lanes : Nat) : Word64 :=
  let l := w64 lanes
  let m := w64 rw &&& l
  let c := w64 w1c &&& l &&& val
  (old &&& ~~~m &&& ~~~c) ||| (val &&& m)

end Sys2Proof.Machine
end

