-- ==== Sys2Proof/Machine/Ops.lean ====
section
/-! DEFINITION. The named operations over the state: registers, cores, vats, ticks, events, interrupts and the fault
reports of the stop sequence (R199). -/

namespace Sys2Proof.Machine

/-! ## Registers -/

/-- A register's word. -/
def State.getReg (s : State) (r : Reg) : Word64 := kget (regReset r) s.regs r
/-- A register's word replaced. -/
def State.setReg (s : State) (r : Reg) (w : Word64) : State := { s with regs := kset s.regs r w }
/-- Bits [hi:lo] of a register. -/
def State.rfld (s : State) (r : Reg) (hi lo : Nat) : Nat := fld (s.getReg r) hi lo
/-- Bits [hi:lo] of a register replaced. -/
def State.putR (s : State) (r : Reg) (hi lo v : Nat) : State := s.setReg r (putFld (s.getReg r) hi lo v)
/-- A counter field raised, saturating at its width. -/
def State.bumpR (s : State) (r : Reg) (hi lo d : Nat) : State := s.putR r hi lo (satAdd (hi - lo + 1) (s.rfld r hi lo) d)
/-- A vat register's word, field and replacement. -/
def State.vreg (s : State) (v : VatId) (r : VatReg) : Word64 := s.getReg (.vat v r)
def State.vfld (s : State) (v : VatId) (r : VatReg) (hi lo : Nat) : Nat := s.rfld (.vat v r) hi lo
def State.putV (s : State) (v : VatId) (r : VatReg) (hi lo x : Nat) : State := s.putR (.vat v r) hi lo x
/-- The shadow of a staged register: the value written, or the committed one when none was (R53). -/
def State.shadowOf (s : State) (r : Reg) : Word64 := kget (s.getReg r) s.shadow r

/-! ## Weights at shared ports (R160, R167, R252, R295, R319) -/

/-- The register that holds the weights of vats 8w to 8w + 7 at a shared port. -/
def shareReg (p : SharedPort) (w : Fin 8) : Reg :=
  match p with
  | .mesh q => .meshShare q w
  | .stack s => .stackShare s w
  | .link l => .linkShare l w
  | .pcie h => .pcieShare (if h = .east then 0 else 1) w
/-- The weight of a vat at a shared port. -/
def State.weight (s : State) (p : SharedPort) (v : VatId) : Nat :=
  s.rfld (shareReg p ⟨v.val / 8, by have := v.isLt; omega⟩) (8 * (v.val % 8) + 7) (8 * (v.val % 8))
/-- A seam port's number among the shared ports. -/
def seamShare (n : Fin 16) : Fin 176 := ⟨128 + n.val, by have := n.isLt; omega⟩
/-- A vat holds a share of a working seam port (R20). -/
def State.crossesSeam (s : State) (v : VatId) : Bool :=
  (allFin 16).any (fun n => s.rfld (.meshSeam n) 32 32 = 0 && s.weight (.mesh (seamShare n)) v ≠ 0)

/-! ## Places -/

/-- The region of a logical core (R12, R13). -/
def regionOf (c : CoreId) : Region := ⟨c.ly.val / 32 * 16 + c.lx.val / 31, by have := c.lx.isLt; have := c.ly.isLt; omega⟩
/-- The region of a physical position (R12). -/
def regionAt (r : RouterId) : Region := ⟨r.py.val / 32 * 16 + r.px.val / 32, by have := r.px.isLt; have := r.py.isLt; omega⟩
/-- The half of a region (R12). -/
def halfOf (r : Region) : Half := if r.val < 96 then .north else .south
/-- The default physical position of a logical core (R13). -/
def defaultPos (c : CoreId) : RouterId :=
  ⟨⟨32 * (c.lx.val / 31) + c.lx.val % 31, by have := c.lx.isLt; omega⟩, c.ly⟩
/-- The physical position of a logical core under the remap (R14). -/
def State.posOf (s : State) (c : CoreId) : RouterId := kget (defaultPos c) s.pow.remap c
/-- The logical core at a physical position: the one moved there, else the default one; a spare column position in no
use, and a default position whose core has moved away, hold none (R14, R15). -/
def State.coreAt (s : State) (r : RouterId) : Option CoreId :=
  match s.pow.remap.find? (fun p => p.2 = r) with
  | some p => some p.1
  | none =>
    if h : r.px.val % 32 < 31 then
      let c : CoreId := ⟨⟨31 * (r.px.val / 32) + r.px.val % 32, by have := r.px.isLt; omega⟩, r.py⟩
      if (kfind s.pow.remap c).isSome then none else some c
    else none

/-- The logical position under which a router or a port of it reports: its core's, or where it holds none that of its place in the grid,
a spare column's being that of the last core column of its region (R13, R200, log entry 38). -/
def State.placeOf (s : State) (r : RouterId) : CoreId :=
  (s.coreAt r).getD ⟨⟨31 * (r.px.val / 32) + min (r.px.val % 32) 30, by have := r.px.isLt; omega⟩, r.py⟩

/-! ## Vats and regions -/

/-- The vat that holds a region (R257). -/
def State.ownerOf (s : State) (r : Region) : Option VatId :=
  (allFin 64).find? (fun v => bitAt (s.vreg v (.vatRegions ⟨r.val / 64, by have := r.isLt; omega⟩)) (r.val % 64))
/-- The vat of a core (R85 VAT). -/
def State.vatOf (s : State) (c : CoreId) : Option VatId := s.ownerOf (regionOf c)
/-- A region belongs to a vat. -/
def State.holds (s : State) (v : VatId) (r : Region) : Bool :=
  bitAt (s.vreg v (.vatRegions ⟨r.val / 64, by have := r.isLt; omega⟩)) (r.val % 64)
/-- The regions of a vat, ascending. -/
def State.regionsOf (s : State) (v : VatId) : List Region := (allFin 192).filter (fun r => s.holds v r)
/-- VAT_STATUS.STATE (R259). -/
def State.vstate (s : State) (v : VatId) : Nat := s.vfld v .vatStatus 2 0
/-- What the vat keeps beside its registers. -/
def State.vat (s : State) (v : VatId) : Vat := kget {} s.vats v
def State.setVat (s : State) (v : VatId) (x : Vat) : State := { s with vats := kset s.vats v x }
def State.modVat (s : State) (v : VatId) (f : Vat → Vat) : State := s.setVat v (f (s.vat v))
/-- The vat issues no instructions: FREE, LOADED, QUIESCED or STOPPED (R26, R259). -/
def State.issuesNothing (s : State) (v : VatId) : Bool := s.vstate v ∈ [0, 1, 4, 5]
/-- PWR_REGION_n.ON and RETIRED. -/
def State.regionOn (s : State) (r : Region) : Bool := s.rfld (.pwrRegion r) 14 14 = 1
def State.regionRetired (s : State) (r : Region) : Bool := s.rfld (.pwrRegion r) 16 16 = 1
/-- The current temper step of a region (R332). -/
def State.stepOf (s : State) (r : Region) : Nat := s.rfld (.thermRegion r) 19 16
/-- The module state of R336. -/
def State.modState (s : State) : Nat := s.rfld .pwrState 2 0
/-- The register block takes writes: states RIM to SHUTDOWN (R336, R340). -/
def State.barUp (s : State) : Bool := 2 ≤ s.modState && s.modState ≤ 6
/-- It takes writes of the registers that R340 holds back until READY. -/
def State.hostReady (s : State) : Bool := s.modState = 5 || s.modState = 6

/-! ## Cores and threads -/

/-- A core of which nothing has been written yet; in a started vat its thread 0 is ready at index 0 (R186). -/
def freshCore (live : Bool) : Core :=
  if live then { threads := [(0, { status := .ready })] } else {}
/-- A core's state. -/
def State.core (s : State) (c : CoreId) : Core :=
  match kfind s.cores c with
  | some x => x
  | none => freshCore (match s.vatOf c with | some v => (s.vat v).live | none => false)
def State.setCore (s : State) (c : CoreId) (x : Core) : State := { s with cores := kset s.cores c x }
def State.modCore (s : State) (c : CoreId) (f : Core → Core) : State := s.setCore c (f (s.core c))
/-- A thread of a core. -/
def Core.thread (k : Core) (t : Fin 16) : Thread := kget {} k.threads t
def Core.modThread (k : Core) (t : Fin 16) (f : Thread → Thread) : Core :=
  { k with threads := kset k.threads t (f (k.thread t)) }
def State.thread (s : State) (t : Site) : Thread := (s.core t.core).thread t.thread
def State.modThread (s : State) (t : Site) (f : Thread → Thread) : State :=
  s.modCore t.core (fun k => k.modThread t.thread f)
/-- A scalar register of a thread (R58): no register is hard-wired. -/
def Thread.sreg (h : Thread) (r : BitVec 5) : Word64 := kget 0 h.regs r
def Thread.setS (h : Thread) (r : BitVec 5) (w : Word64) : Thread := { h with regs := kset h.regs r w }
/-- A vector register of a thread: 64 lanes (R58). -/
def Thread.vreg (h : Thread) (r : BitVec 3) : List Word32 := kget (List.replicate 64 0) h.vregs r
def Thread.setV (h : Thread) (r : BitVec 3) (w : List Word32) : Thread := { h with vregs := kset h.vregs r w }
/-- A lane of a vector register. -/
def lane (v : List Word32) (i : Nat) : Word32 := v.getD i 0
/-- The cores of a vat that the state lists. -/
def State.listedCores (s : State) (v : VatId) : List CoreId :=
  (s.cores.map Prod.fst).filter (fun c => s.holds v (regionOf c))
/-- A change of every listed core of a vat. -/
def State.mapCores (s : State) (v : VatId) (f : Core → Core) : State :=
  { s with cores := s.cores.map (fun p => if s.holds v (regionOf p.1) then (p.1, f p.2) else p) }

/-! ## Routers, links, queues -/

def State.router (s : State) (r : RouterId) : Router := kget {} s.routers r
def State.modRouter (s : State) (r : RouterId) (f : Router → Router) : State :=
  { s with routers := kset s.routers r (f (s.router r)) }
def State.link (s : State) (l : LinkId) : Link := kget {} s.links l
def State.modLink (s : State) (l : LinkId) (f : Link → Link) : State := { s with links := kset s.links l (f (s.link l)) }
def State.qp (s : State) (n : QueueId) : QPair := kget {} s.queues n
def State.modQp (s : State) (n : QueueId) (f : QPair → QPair) : State := { s with queues := kset s.queues n (f (s.qp n)) }
def State.stream (s : State) (v : VatId) (st : StreamId) : Option Stream := kfind (s.vat v).streams st
def State.setStream (s : State) (v : VatId) (st : StreamId) (x : Stream) : State :=
  s.modVat v (fun w => { w with streams := kset w.streams st x })
def State.pail (s : State) (v : VatId) (p : Nat) : Pail := kget {} (s.vat v).pails p
def State.setPail (s : State) (v : VatId) (p : Nat) (x : Pail) : State :=
  s.modVat v (fun w => { w with pails := kset w.pails p x })
def State.ctr (s : State) (v : VatId) (i : Vid) : Ctr := kget {} s.ctrs (v, i)
def State.sched (s : State) (p : SharedPort) (d : Bool) : Sched := kget {} s.scheds (p, d)
def State.send (s : State) (o : Out) : State := { s with out := s.out ++ [o] }

/-! ## Ticks (R34, R35, R52) -/

/-- The tick the rim blocks take: the north half's, or the south half's when the north half is stopped (R35). -/
def State.now (s : State) : Nat := if s.runNorth then s.tickNorth else if s.runSouth then s.tickSouth else s.tickNorth
def State.tickOf (s : State) (h : Half) : Nat := match h with | .north => s.tickNorth | .south => s.tickSouth
def State.runs (s : State) (h : Half) : Bool := match h with | .north => s.runNorth | .south => s.runSouth
/-- The committed tick period in ns. -/
def State.period (s : State) : Nat := s.rfld .tickPeriod 15 0
/-- How many ticks a window of so many ns covers (R52). -/
def State.winTicks (s : State) (ns : Nat) : Nat := max 1 (ceilDiv ns s.period)
/-- Ticks from a to b, modulo 2^48 (R34). -/
def ticksFrom (a b : Nat) : Nat := (b + 2 ^ 48 - a % 2 ^ 48) % 2 ^ 48
/-- One hour, in ticks (R52). -/
def State.hour (s : State) : Nat := s.winTicks 3600000000000
/-- The tick that a core's block stamps with: its own half's, or the running one's when its half is stopped (R35, R49). -/
def State.tickAt (s : State) (c : CoreId) : Nat :=
  if s.runs (halfOf (regionOf c)) then s.tickOf (halfOf (regionOf c)) else s.now
/-- A window that started at tick a with n ticks is over at tick b: b is s + n or later (R52). -/
def windowOver (a n b : Nat) : Bool := n ≤ ticksFrom a b

/-! ## Interrupts (R328, R329) -/

def HostSt.down (h : HostSt) (p : HostPort) : Bool := match p with | .east => h.eastDown | .west => h.westDown
def portOfBit (b : Nat) : HostPort := if b = 0 then .east else .west
/-- An MSI-X message: sent, or its pending bit set while the port's link is down (R328). -/
def State.msix (s : State) (p : HostPort) (vec : Nat) : State :=
  if s.host.down p then
    if (p, vec) ∈ s.host.msixPending then s else { s with host := { s.host with msixPending := s.host.msixPending ++ [(p, vec)] } }
  else s.send (.msix p vec)
/-- A cause bit of an interrupt register set; a message goes when it rises while EN is 1 (R329). -/
def State.cause (s : State) (r : Reg) (bit : Nat) : State :=
  if s.rfld r bit bit = 1 then s
  else
    let s1 := s.putR r bit bit 1
    if s.rfld r 11 11 = 1 then s1.msix (portOfBit (s.rfld r 12 12)) (s.rfld r 10 0) else s1

/-! ## Status codes and health events (R331, R333, R382) -/

/-- The 8-bit encoding of a status name (R333). -/
def statusCode : Status → Nat
  | .ok => 0x00
  | .illegal => 0x01
  | .format => 0x02
  | .counter => 0x03
  | .empty => 0x04
  | .oversize => 0x05
  | .address => 0x06
  | .protect => 0x07
  | .eccfatal => 0x10
  | .vatfault => 0x11
  | .slip => 0x12
  | .timeout => 0x13
  | .length => 0x20
  | .cancelled => 0x21
  | .variant => 0x22
  | .reset => 0x23
  | .badentry => 0x24
  | .nostream => 0x25
  | .nospace => 0x26
  | .headroom => 0x30
  | .wrap => 0x31
  | .tb2Invalid => 0x32
  | .scaleNan => 0x33

/-- The warden logs a health event: the ring's next entry, NEXT, TOTAL, and GLB_IRQ.EVENT (R331, R329). -/
def State.logEvent (s : State) (code status unit_ index : Nat) : State :=
  let e : Fin 256 := ⟨s.rfld .glbEventWr 7 0 % 256, Nat.mod_lt _ (by decide)⟩
  let w0 := w64 (code + status * 2 ^ 16 + unit_ * 2 ^ 24 + index * 2 ^ 32)
  let w1 := w64 (s.now + s.rfld .pwrState 31 16 * 2 ^ 48)
  let s1 := (s.setReg (.glbEvent e 0) w0).setReg (.glbEvent e 1) w1
  let s2 := (s1.putR .glbEventWr 7 0 (e.val + 1)).bumpR .glbEventWr 39 8 1
  let s3 := { s2 with pow := { s2.pow with alertReleased := false } }
  s3.cause .glbIrq 16

/-- VAT_STATUS.STATE changes; QUIESCED, LOADED and FREE are signalled (R259, R329). -/
def State.setVstate (s : State) (v : VatId) (x : Nat) : State :=
  let s1 := s.putV v .vatStatus 2 0 x
  if x ∈ [4, 1, 0] then s1.cause (.vat v .vatIrq) 18 else s1
/-- VAT_STATUS.CMD_REFUSED set. -/
def State.refuseCmd (s : State) (v : VatId) : State := s.putV v .vatStatus 3 3 1

/-! ## Faults and the stop sequence (R197 to R199) -/

/-- Step 1 of R199 in a core: it stops issuing on all threads; queued MAC instructions and descriptors are discarded. -/
def Core.halt (k : Core) : Core := { k with halted := true, macWait := none, dmaQ := [] }
/-- A fault report sent to the vat's record (R199 step 2). -/
def State.report (s : State) (r : FaultReport) : State := { s with reports := s.reports ++ [r] }
/-- A fault of the instruction at an index of a thread: its core halts and reports it (R197, R199). -/
def State.threadFaultAt (s : State) (t : Site) (pc : Nat) (st : Status) : State :=
  let s1 := s.modCore t.core Core.halt
  match s.vatOf t.core with
  | none => s1
  | some v => s1.report { vat := v, status := st, lx := t.core.lx, ly := t.core.ly, thread := t.thread, pc := pc,
                          source := true, tick := s.tickAt t.core, hardware := decide (st = .eccfatal) }
/-- A fault of a thread's instruction at its program counter. -/
def State.threadFault (s : State) (t : Site) (st : Status) : State := s.threadFaultAt t (s.thread t).pc st
/-- A containment fault detected by a router or port of a core's half, stamped with that half's tick (R49, R197). -/
def State.vatFault (s : State) (v : VatId) (at_ : CoreId) (st : Status := .vatfault) : State :=
  s.report { vat := v, status := st, lx := at_.lx, ly := at_.ly, tick := s.tickAt at_ }
/-- The same, detected by a rim block, which stamps with the rim's tick (R35, R49). -/
def State.rimFault (s : State) (v : VatId) (at_ : CoreId) : State :=
  s.report { vat := v, status := .vatfault, lx := at_.lx, ly := at_.ly, tick := s.now }
/-- A hardware stop's report (R361). -/
def State.hardStop (s : State) (v : VatId) (st : Status) (at_ : CoreId) : State :=
  s.report { vat := v, status := st, lx := at_.lx, ly := at_.ly, tick := s.tickAt at_, hardware := true }
/-- A double-bit error met in a core's cream or scratchpad: its flag, and a health event (R85, R197). -/
def State.eccMet (s : State) (c : CoreId) : State :=
  (s.modCore c (fun k => { k with eccFatal := true })).logEvent 0x0015 (statusCode .eccfatal) 1 (regionOf c)
/-- The vat that holds a core stops by hardware stop with ECCFATAL (R197, R363). -/
def State.eccStopHolder (s : State) (c : CoreId) : State :=
  match s.vatOf c with
  | some v => s.hardStop v .eccfatal c
  | none => s
/-- A flit discarded with its vat stopped: VATFAULTS counts it (R145, R149, R167). -/
def State.discardFlit (s : State) (v : VatId) (at_ : CoreId) : State :=
  (s.bumpR (.vat v .meshStatus) 63 32 1).vatFault v at_

/-- The status an instruction that fails checks reports: the first of R198's order that applies, which is the lowest code. -/
def firstFault : List (Bool × Status) → Option Status
  | [] => none
  | (b, st) :: cs =>
    match firstFault cs with
    | none => if b then some st else none
    | some x => if b && decide (statusCode st ≤ statusCode x) then some st else some x

/-- Every outcome of a command that the model gives: the next state. -/
abbrev Result := Host.Outcome State Fault Refusal

end Sys2Proof.Machine
end

