-- ==== Sys2Proof/Machine/Flags.lean ====
section
/-! DEFINITION. The sticky flags: the recipe flag (R109 to R112) and the wrap bits of the core status word (R85). -/

namespace Sys2Proof.Machine

/-- The causes of the recipe flag, numbered by their bit of VAT_RECIPE (R112). -/
abbrev causeHeadroom : Fin 4 := 0
abbrev causeWrap : Fin 4 := 1
abbrev causeTb2 : Fin 4 := 2
abbrev causeScaleNan : Fin 4 := 3

/-- An arithmetic hazard in a core: recorded against LAYER_TAG, reported once per cause and tag (R111). -/
def State.raiseRecipe (s : State) (c : CoreId) (x : Fin 4) : State :=
  let k := s.core c
  if bitAt k.causeMask x then s
  else
    let s1 := s.setCore c { k with causeMask := k.causeMask ||| (1#4 <<< x.val) }
    match s.vatOf c with
    | none => s1
    | some v => { s1 with recipes := s1.recipes ++ [{ vat := v, core := c, tag := k.layerTag, cause := x, tick := s.tickAt c }] }

/-- Several hazards in turn. -/
def State.raiseAll (s : State) (c : CoreId) (xs : List (Fin 4)) : State := xs.foldl (fun a x => a.raiseRecipe c x) s

/-- An INT32 accumulate-on-write wrapped (R65). -/
def State.spmWrapped (s : State) (c : CoreId) : State :=
  (s.modCore c (fun k => { k with spmWrap := true })).raiseRecipe c causeWrap

/-- An INT32 sum in two's complement, and whether it wrapped (R65, R95). -/
def int32Add (a b : Word32) : Word32 × Bool :=
  let v := a.toInt + b.toInt
  (a + b, v < -(2 ^ 31 : Int) || (2 ^ 31 : Int) - 1 < v)

/-- An integer group sum added to an INT32 tile word, and whether it wrapped (R95). -/
def int32AddInt (a : Word32) (g : Int) : Word32 × Bool :=
  let v := a.toInt + g
  (BitVec.ofInt 32 v, v < -(2 ^ 31 : Int) || (2 ^ 31 : Int) - 1 < v)

end Sys2Proof.Machine
end

