-- ==== Sys2Proof/Machine/Fp.lean ====
section
/-! DEFINITION. Number formats and arithmetic (R86 to R107): exact values, one rounding to nearest even, canonical NaN.
A finite value is a sign, a magnitude m and an exponent e, and stands for ±m × 2^e. -/

namespace Sys2Proof.Machine

/-- A value of a floating format. -/
inductive Fp where
  | nan
  | inf (neg : Bool)
  | fin (neg : Bool) (m : Nat) (e : Int)
  deriving DecidableEq, Repr

/-- A floating format (R87): exponent and mantissa bits, bias; specials: 0 none, 1 as IEEE 754, 2 the one NaN of FP8 E4M3. -/
structure FpFmt where
  eb : Nat
  mb : Nat
  bias : Nat
  specials : Nat
  deriving DecidableEq, Repr

def fmtFp32 : FpFmt := ⟨8, 23, 127, 1⟩
def fmtFp16 : FpFmt := ⟨5, 10, 15, 1⟩
def fmtBf16 : FpFmt := ⟨8, 7, 127, 1⟩
def fmtE5m2 : FpFmt := ⟨5, 2, 15, 1⟩
def fmtE4m3 : FpFmt := ⟨4, 3, 7, 2⟩
def fmtE3m2 : FpFmt := ⟨3, 2, 3, 0⟩
def fmtE2m3 : FpFmt := ⟨2, 3, 1, 0⟩
def fmtE2m1 : FpFmt := ⟨2, 1, 1, 0⟩

/-- The value an encoding stands for (R87). -/
def fpDecode (f : FpFmt) (w : Nat) : Fp :=
  let neg := w / 2 ^ (f.eb + f.mb) % 2 == 1
  let e := w / 2 ^ f.mb % 2 ^ f.eb
  let m := w % 2 ^ f.mb
  if f.specials = 1 ∧ e = 2 ^ f.eb - 1 then (if m = 0 then .inf neg else .nan)
  else if f.specials = 2 ∧ e = 2 ^ f.eb - 1 ∧ m = 2 ^ f.mb - 1 then .nan
  else if e = 0 then .fin neg m (1 - (f.bias : Int) - f.mb)
  else .fin neg (2 ^ f.mb + m) ((e : Int) - f.bias - f.mb)

/-- m ÷ 2^k to nearest, ties to even. -/
def rneShift (m k : Nat) : Nat :=
  let q := m / 2 ^ k
  let r := m % 2 ^ k
  if k = 0 then m
  else if r < 2 ^ (k - 1) then q
  else if 2 ^ (k - 1) < r then q + 1
  else q + q % 2

/-- m × 2^e as a multiple of 2^q, rounded to nearest even. -/
def rneAt (m : Nat) (e q : Int) : Nat :=
  if q ≤ e then m * 2 ^ (e - q).toNat else rneShift m (q - e).toNat

/-- The exponent of the last place of a value in a format: the precision's, or the subnormal range's. -/
def lastPlace (f : FpFmt) (m : Nat) (e : Int) : Int :=
  max (e + (Nat.log2 m : Int) - f.mb) (1 - (f.bias : Int) - f.mb)

/-- The magnitude's encoding of m × 2^e rounded to nearest even, unbounded above. -/
def rneMag (f : FpFmt) (m : Nat) (e : Int) : Nat :=
  if m = 0 then 0
  else
    let q := lastPlace f m e
    (q - (1 - (f.bias : Int) - f.mb)).toNat * 2 ^ f.mb + rneAt m e q

/-- The magnitude's encoding of m × 2^e rounded towards zero, and whether nothing was dropped. -/
def truncMag (f : FpFmt) (m : Nat) (e : Int) : Nat × Bool :=
  if m = 0 then (0, true)
  else
    let q := lastPlace f m e
    let base := (q - (1 - (f.bias : Int) - f.mb)).toNat * 2 ^ f.mb
    if q ≤ e then (base + m * 2 ^ (e - q).toNat, true)
    else (base + m / 2 ^ (q - e).toNat, m % 2 ^ (q - e).toNat == 0)

/-- The encoding of infinity's magnitude, or of the first magnitude past the largest finite one. -/
def overMag (f : FpFmt) : Nat :=
  if f.specials = 1 then (2 ^ f.eb - 1) * 2 ^ f.mb
  else if f.specials = 2 then 2 ^ (f.eb + f.mb) - 1
  else 2 ^ (f.eb + f.mb)

/-- The sign bit's value. -/
def signBit (f : FpFmt) (neg : Bool) : Nat := if neg then 2 ^ (f.eb + f.mb) else 0

/-- The canonical NaN of a format (R104). -/
def canonNan (f : FpFmt) : Nat :=
  if f = fmtE5m2 then 0x7F
  else if f.specials = 1 then (2 ^ f.eb - 1) * 2 ^ f.mb + 2 ^ (f.mb - 1)
  else 2 ^ (f.eb + f.mb) - 1

/-- A value rounded to a format with infinities (R102): to nearest even, past the range to infinity. -/
def fpEncode (f : FpFmt) : Fp → Nat
  | .nan => canonNan f
  | .inf neg => signBit f neg + overMag f
  | .fin neg m e => signBit f neg + min (rneMag f m e) (overMag f)

/-- A value converted to an FP8 format (R106): finite values saturate; infinity as the table has it. -/
def fp8Convert (f : FpFmt) : Fp → Nat
  | .nan => 0x7F
  | .inf neg => if f = fmtE4m3 then 0x7F else signBit f neg + overMag f
  | .fin neg m e => signBit f neg + min (rneMag f m e) (overMag f - 1)

def dec32 (w : Word32) : Fp := fpDecode fmtFp32 w.toNat
def enc32 (x : Fp) : Word32 := w32 (fpEncode fmtFp32 x)
/-- The canonical NaN of FP32 (R104). -/
def nan32 : Word32 := 0x7FC00000

def Fp.isNan : Fp → Bool
  | .nan => true
  | _ => false
def Fp.isFin : Fp → Bool
  | .fin _ _ _ => true
  | _ => false
def Fp.neg : Fp → Fp
  | .nan => .nan
  | .inf b => .inf (!b)
  | .fin b m e => .fin (!b) m e

/-- A finite value's signed magnitude at exponent q, where q is at most its own exponent. -/
def atExp (b : Bool) (m : Nat) (e q : Int) : Int :=
  let v : Int := m * 2 ^ (e - q).toNat
  if b then -v else v

/-- The exact value of a signed magnitude. -/
def ofInt (v q : Int) : Fp := .fin (v < 0) v.natAbs q

/-- Exact addition: NaN for opposite infinities; an exact zero sum is +0 unless both are −0 (R103). -/
def fpAdd : Fp → Fp → Fp
  | .nan, _ => .nan
  | _, .nan => .nan
  | .inf a, .inf b => if a = b then .inf a else .nan
  | .inf a, _ => .inf a
  | _, .inf b => .inf b
  | .fin a m e, .fin b n g =>
    let q := min e g
    let v := atExp a m e q + atExp b n g q
    if v = 0 then .fin (a && b) 0 q else ofInt v q

/-- Exact multiplication: zero times infinity is NaN. -/
def fpMul : Fp → Fp → Fp
  | .nan, _ => .nan
  | _, .nan => .nan
  | .inf a, .inf b => .inf (a != b)
  | .inf a, .fin b n _ => if n = 0 then .nan else .inf (a != b)
  | .fin a m _, .inf b => if m = 0 then .nan else .inf (a != b)
  | .fin a m e, .fin b n g => .fin (a != b) (m * n) (e + g)

/-- FP32 operations: exact, rounded once to nearest even (R102). -/
def add32 (a b : Word32) : Word32 := enc32 (fpAdd (dec32 a) (dec32 b))
def sub32 (a b : Word32) : Word32 := enc32 (fpAdd (dec32 a) (dec32 b).neg)
def mul32 (a b : Word32) : Word32 := enc32 (fpMul (dec32 a) (dec32 b))
def fma32 (a b c : Word32) : Word32 := enc32 (fpAdd (fpMul (dec32 a) (dec32 b)) (dec32 c))

/-- Order of two values, −0 equal to +0: none when either is NaN. -/
def fpCmp : Fp → Fp → Option Ordering
  | .nan, _ => none
  | _, .nan => none
  | .inf a, .inf b => some (if a = b then .eq else if a then .lt else .gt)
  | .inf a, _ => some (if a then .lt else .gt)
  | _, .inf b => some (if b then .gt else .lt)
  | .fin a m e, .fin b n g =>
    let q := min e g
    some (compare (atExp a m e q) (atExp b n g q))

/-- A value's sign. -/
def Fp.sign : Fp → Bool
  | .nan => false
  | .inf b => b
  | .fin b _ _ => b

/-- The lesser by min and max's order, where −0 lies below +0 (R103). -/
def fpBelow (a b : Fp) : Bool :=
  match fpCmp a b with
  | some .lt => true
  | some .eq => a.sign && !b.sign
  | _ => false

/-- Minimum and maximum: with one NaN operand the other operand, with two the canonical NaN (R103, R104). -/
def min32 (a b : Word32) : Word32 :=
  let x := dec32 a
  let y := dec32 b
  if x.isNan && y.isNan then nan32 else if x.isNan then b else if y.isNan then a else if fpBelow y x then b else a
def max32 (a b : Word32) : Word32 :=
  let x := dec32 a
  let y := dec32 b
  if x.isNan && y.isNan then nan32 else if x.isNan then b else if y.isNan then a else if fpBelow x y then b else a

/-- A condition on FP32 values by COND's codes 1 to 4; comparisons with NaN are false (R103, R208). -/
def cond32 (code : Nat) (a b : Word32) : Bool :=
  match fpCmp (dec32 a) (dec32 b) with
  | none => false
  | some o => if code = 1 then o = .eq else if code = 2 then o ≠ .eq else if code = 3 then o = .lt
              else if code = 4 then o ≠ .lt else false

/-! ## Compensated sums (R99, R100) -/

def finite32 (a : Word32) : Bool := (dec32 a).isFin

/-- The two-sum step. -/
def twoSum (a b : Word32) : Word32 × Word32 :=
  let t := add32 a b
  let z := sub32 t a
  (t, add32 (sub32 a (sub32 t z)) (sub32 b z))

/-- A value added to a pair (sum, error). -/
def compAdd (p : Word32 × Word32) (x : Word32) : Word32 × Word32 :=
  if !finite32 p.1 || !finite32 x then (add32 p.1 x, 0)
  else
    let (t, err) := twoSum p.1 x
    if !finite32 t then (t, 0) else (t, add32 p.2 err)

/-- Two pairs combined. -/
def pairCombine (loc inc : Word32 × Word32) : Word32 × Word32 :=
  if !finite32 loc.1 || !finite32 inc.1 then (add32 loc.1 inc.1, 0)
  else
    let (t, err) := twoSum loc.1 inc.1
    if !finite32 t then (t, 0) else (t, add32 (add32 loc.2 inc.2) err)

/-- A collapsed read: sum plus error, rounded once (R77). -/
def collapse32 (p : Word32 × Word32) : Word32 := add32 p.1 p.2

/-! ## Groups (R92 to R97) -/

/-- One level of the pairwise tree: neighbours combined. -/
def pairLevel {α : Type} (f : α → α → α) : List α → List α
  | a :: b :: xs => f a b :: pairLevel f xs
  | xs => xs

/-- The pairwise tree over a list, with as many levels as given (R96, R105). -/
def pairTree {α : Type} (f : α → α → α) : Nat → List α → List α
  | 0, xs => xs
  | n + 1, xs => pairTree f n (pairLevel f xs)

/-- One block of 32 elements with its E8M0 scale byte, as decoded (R89). -/
structure Block where
  scale : Nat
  elems : List Fp
  deriving DecidableEq, Repr

/-- The running sum of a block's products: NaN met, infinities met, exact integer in units of 2^(qw+qa). -/
structure BlockAcc where
  nan : Bool := false
  posInf : Bool := false
  negInf : Bool := false
  acc : Int := 0
  deriving DecidableEq, Repr

/-- One product into the block register (R92). -/
def blockStep (unit_ : Int) (s : BlockAcc) (p : Fp × Fp) : BlockAcc :=
  match fpMul p.1 p.2 with
  | .nan => { s with nan := true }
  | .inf neg => if neg then { s with negInf := true } else { s with posInf := true }
  | .fin b m e => { s with acc := s.acc + atExp b m e unit_ }

/-- A block group's result and the hazards it raises, by number (R92, R109). -/
def blockGroup (wb ab : Block) (qw qa : Int) : Word32 × List (Fin 4) :=
  if wb.scale = 0xFF ∨ ab.scale = 0xFF then (nan32, [3])
  else
    let s := (wb.elems.zip ab.elems).foldl (blockStep (qw + qa)) {}
    if s.nan || (s.posInf && s.negInf) then (nan32, [])
    else if s.posInf then (0x7F800000, [])
    else if s.negInf then (0xFF800000, [])
    else
      let past := decide (2 ^ 62 ≤ s.acc.natAbs)
      let held : Int := if past then (if s.acc < 0 then -(2 ^ 62 - 1) else 2 ^ 62 - 1) else s.acc
      (enc32 (.fin (held < 0) held.natAbs (qw + qa + wb.scale + ab.scale - 254)), if past then [0] else [])

/-- The integer path's group (R95). -/
def intGroup (w a : List Int) : Int := (w.zip a).foldl (fun s p => s + p.1 * p.2) 0

/-- The float path's group: products in FP32 summed by the pairwise tree (R96). -/
def floatGroup (ps : List Word32) : Word32 := (pairTree add32 5 ps).headD 0

/-- FP16 accumulation: products rounded to FP16 and the tree in FP16 (R97). -/
def add16 (a b : Nat) : Nat := fpEncode fmtFp16 (fpAdd (fpDecode fmtFp16 a) (fpDecode fmtFp16 b))
def fp16Group (ps : List Fp) : Nat := (pairTree add16 5 (ps.map (fpEncode fmtFp16))).headD 0
/-- An FP16 group added into a tile word (R97). -/
def fp16Add (sum : Word32) (g : Nat) : Word32 :=
  let s := fpEncode fmtFp16 (dec32 sum)
  enc32 (fpDecode fmtFp16 (add16 s g))

/-! ## Block formats (R86, R88 to R90) -/

/-- A format code's floating element format, where it has one. -/
def elemFmt (code : Nat) : Option FpFmt :=
  match code with
  | 0x0 => some fmtE2m1
  | 0x1 => some fmtE2m3
  | 0x2 => some fmtE3m2
  | 0x3 => some fmtE4m3
  | 0x4 => some fmtE5m2
  | 0x7 => some fmtE4m3
  | 0x8 => some fmtE5m2
  | 0xB => some fmtBf16
  | 0xC => some fmtFp16
  | 0xD => some fmtFp32
  | _ => none

/-- The quantum of an element type (R92). -/
def quantum (code : Nat) : Int :=
  match code with
  | 0x0 => -1
  | 0x1 => -3
  | 0x2 => -4
  | 0x3 => -9
  | 0x4 => -16
  | 0x5 => -6
  | 0x7 => -9
  | 0x8 => -16
  | _ => 0

/-- A two's complement integer of n bits. -/
def signedOf (n v : Nat) : Int := if v % 2 ^ n < 2 ^ (n - 1) then (v % 2 ^ n : Nat) else (v % 2 ^ n : Nat) - (2 ^ n : Int)

/-- Trit digit j of a TB2 byte as a weight; an invalid byte's weights are 0 (R90). -/
def tritOf (b j : Nat) : Int := if 243 ≤ b then 0 else (b / 3 ^ j % 3 : Nat) - 1

/-- Bytes of 32 elements (and scale) of a weight format (R89, R216). -/
def groupBytes (code : Nat) : Nat :=
  match code with
  | 0x0 => 17
  | 0x1 => 25
  | 0x2 => 25
  | 0x3 => 33
  | 0x4 => 33
  | 0x5 => 33
  | 0x6 => 8
  | 0x7 => 32
  | 0x8 => 32
  | 0x9 => 16
  | 0xA => 32
  | _ => 64

/-- The 32 elements of a group as values, from the group's bytes (R89); bytes is the element part. -/
def groupElems (code : Nat) (bytes : List Byte) : List Fp :=
  let n := ofLe bytes
  let at_ (j w : Nat) : Nat := n / 2 ^ (w * j) % 2 ^ w
  let fs (f : FpFmt) (w : Nat) : List Fp := (upTo 32).map (fun j => fpDecode f (at_ j w))
  match code with
  | 0x0 => fs fmtE2m1 4
  | 0x1 => fs fmtE2m3 6
  | 0x2 => fs fmtE3m2 6
  | 0x3 => fs fmtE4m3 8
  | 0x4 => fs fmtE5m2 8
  | 0x5 => (upTo 32).map (fun j => ofInt (signedOf 8 (at_ j 8)) (-6))
  | 0x6 => (upTo 32).map (fun j => ofInt (tritOf (at_ (j / 5) 8) (j % 5)) 0)
  | 0x7 => fs fmtE4m3 8
  | 0x8 => fs fmtE5m2 8
  | 0xB => fs fmtBf16 16
  | _ => fs fmtFp16 16

/-- The integers of a group of INT4 or INT8 weights or activations. -/
def groupInts (code : Nat) (bytes : List Byte) : List Int :=
  let n := ofLe bytes
  if code = 0x9 then (upTo 32).map (fun j => signedOf 4 (n / 2 ^ (4 * j)))
  else (upTo 32).map (fun j => signedOf 8 (n / 2 ^ (8 * j)))

/-- A TB2 block has an invalid byte (R90). -/
def tb2Invalid (bytes : List Byte) : Bool := bytes.any (fun b => 243 ≤ b.toNat)

/-! ## Long functions (R105): a value within one unit in the last place -/

/-- One of the encodings within one unit in the last place of a value whose magnitude truncates to mag. -/
def withinUlp (mag : Nat) (exact : Bool) (pick : Fin 3) : Nat :=
  let top := overMag fmtFp32 - 1
  if top < mag then overMag fmtFp32
  else if exact then min (mag + pick.val - 1) top
  else min (if pick.val = 0 then mag else mag + 1) top

/-- 2^128 × ln 2 and 2^128 × 2π, rounded down. -/
def ln2Fix : Nat := 235865763225513294137944142764154484399
def twoPiFix : Nat := 2138057168129933495719360746323741566601

/-- Σ y^k ÷ k! at 128 fraction bits, n terms from term on. -/
def expTerms (y : Nat) : Nat → Nat → Nat → Nat
  | 0, _, _ => 0
  | n + 1, k, term => term + expTerms y n (k + 1) (term * y / 2 ^ 128 / (k + 1))

/-- The alternating series from term on, in steps of two factors, for sine and cosine. -/
def trigTerms (y2 : Nat) : Nat → Nat → Int → Int
  | 0, _, _ => 0
  | n + 1, k, term => term + trigTerms y2 n (k + 2) (-(term * (y2 : Int) / (2 ^ 128 : Int)) / (((k + 1) * (k + 2) : Nat) : Int))

/-- exp2 of an FP32 value (R105). -/
def exp2w (x : Word32) : Word32 :=
  match dec32 x with
  | .nan => nan32
  | .inf neg => if neg then 0 else 0x7F800000
  | .fin b m e =>
    let v := fpCmp (.fin b m e) (.fin false 128 0)
    let lo := fpCmp (.fin b m e) (.fin true 160 0)
    if v = some .gt || v = some .eq then 0x7F800000
    else if lo = some .lt then w32 (withinUlp 0 false (Config.exp2Pick x))
    else
      let sh := e + 96
      let sg : Int := if b then -(m : Int) else (m : Int)
      let fx : Int := if 0 ≤ sh then sg * (2 ^ sh.toNat : Int) else sg / (2 ^ (-sh).toNat : Int)
      let whole := if 0 ≤ sh then true else sg % (2 ^ (-sh).toNat : Int) == 0
      let n : Int := fx / (2 ^ 96 : Int)
      let f : Nat := (fx % (2 ^ 96 : Int)).toNat
      let mant := expTerms (f * ln2Fix / 2 ^ 96) 40 0 (2 ^ 128)
      let (mag, ex) := truncMag fmtFp32 mant (n - 128)
      w32 (withinUlp mag (ex && f == 0 && whole) (Config.exp2Pick x))

/-- Reciprocal of an FP32 value (R105). -/
def rcpw (x : Word32) : Word32 :=
  match dec32 x with
  | .nan => nan32
  | .inf neg => w32 (signBit fmtFp32 neg)
  | .fin b m e =>
    if m = 0 then w32 (signBit fmtFp32 b + overMag fmtFp32)
    else
      let (mag, ex) := truncMag fmtFp32 (2 ^ 96 / m) (-e - 96)
      w32 (signBit fmtFp32 b + withinUlp mag (ex && 2 ^ 96 % m == 0) (Config.rcpPick x))

/-- Integer square root by bisection from the top bit down. -/
def isqrt (n : Nat) : Nat → Nat → Nat
  | 0, r => r
  | k + 1, r => if (r + 2 ^ k) * (r + 2 ^ k) ≤ n then isqrt n k (r + 2 ^ k) else isqrt n k r

/-- Reciprocal square root of an FP32 value (R105). -/
def rsqrtw (x : Word32) : Word32 :=
  match dec32 x with
  | .nan => nan32
  | .inf neg => if neg then nan32 else 0
  | .fin b m e =>
    if m = 0 then w32 (signBit fmtFp32 b + overMag fmtFp32)
    else if b then nan32
    else
      -- 1 ÷ sqrt(m × 2^e) = sqrt(2^192 ÷ m') × 2^(−96 − e' ÷ 2) with e' even
      let odd := e % 2 ≠ 0
      let m' := if odd then 2 * m else m
      let e' := if odd then e - 1 else e
      let q : Nat := 2 ^ 192 / m'
      let r : Nat := isqrt q 97 0
      let (mag, ex) := truncMag fmtFp32 r (-96 - e' / 2)
      w32 (withinUlp mag (ex && r * r * m' == 2 ^ 192) (Config.rsqrtPick x))

/-- Sine and cosine of r × 2π ÷ 2^48 for r below a quarter turn, at 128 fraction bits. -/
def trigFix (r : Nat) : Nat × Nat :=
  let y : Nat := r * twoPiFix / 2 ^ 48
  let y2 : Nat := y * y / 2 ^ 128
  ((trigTerms y2 30 1 (y : Int)).toNat, (trigTerms y2 30 0 (2 ^ 128 : Int)).toNat)

/-- A magnitude at 128 fraction bits as an FP32 word within one unit in the last place (R130). -/
def trigWord (neg exact : Bool) (v : Nat) (pick : Fin 3) : Word32 :=
  if v = 0 then 0
  else
    let (mag, ex) := truncMag fmtFp32 v (-128)
    w32 (signBit fmtFp32 neg + withinUlp mag (exact && ex) pick)

/-- Cosine and sine of a 48-bit phase (R130). -/
def cosw (p : BitVec 48) : Word32 :=
  let quad := p.toNat / 2 ^ 46
  let r := p.toNat % 2 ^ 46
  let (sn, cs) := trigFix r
  let v := if quad % 2 = 0 then cs else (if r = 0 then 0 else sn)
  trigWord (quad = 1 || quad = 2) (r == 0) v (Config.cosPick p)
def sinw (p : BitVec 48) : Word32 :=
  let quad := p.toNat / 2 ^ 46
  let r := p.toNat % 2 ^ 46
  let (sn, cs) := trigFix r
  let v := if quad % 2 = 0 then (if r = 0 then 0 else sn) else cs
  trigWord (2 ≤ quad) (r == 0) v (Config.sinPick p)

/-- A pair rotated by a phase: each result rounded once from its exact value (R130). -/
def rotate32 (x y : Word32) (p : BitVec 48) : Word32 × Word32 :=
  let c := dec32 (cosw p)
  let s := dec32 (sinw p)
  let a := dec32 x
  let b := dec32 y
  (enc32 (fpAdd (fpMul a c) (fpMul b s).neg), enc32 (fpAdd (fpMul a s) (fpMul b c)))

/-! ## Conversions (R106, R107, R209) -/

/-- FP32 to an n-bit integer: to nearest even, saturating, NaN to 0 (R106). -/
def toIntSat (n : Nat) (x : Fp) : Int :=
  let hi : Int := 2 ^ (n - 1) - 1
  let lo : Int := -(2 ^ (n - 1))
  match x with
  | .nan => 0
  | .inf neg => if neg then lo else hi
  | .fin b m e =>
    let r : Int := rneAt m e 0
    max lo (min hi (if b then -r else r))

/-- FP32 narrowed to a format code (R106, R209), as the target's bits. -/
def narrow (code : Nat) (w : Word32) : Nat :=
  match code with
  | 0xB => fpEncode fmtBf16 (dec32 w)
  | 0xC => fpEncode fmtFp16 (dec32 w)
  | 0x7 => fp8Convert fmtE4m3 (dec32 w)
  | 0x8 => fp8Convert fmtE5m2 (dec32 w)
  | 0xA => (BitVec.ofInt 8 (toIntSat 8 (dec32 w))).toNat
  | _ => (BitVec.ofInt 32 (toIntSat 32 (dec32 w))).toNat

/-- A packed element widened to FP32 (R209): exact, INT32 rounds to nearest even. -/
def widen (code v : Nat) : Word32 :=
  match code with
  | 0xB => enc32 (fpDecode fmtBf16 v)
  | 0xC => enc32 (fpDecode fmtFp16 v)
  | 0x7 => enc32 (fpDecode fmtE4m3 v)
  | 0x8 => enc32 (fpDecode fmtE5m2 v)
  | 0xA => enc32 (ofInt (signedOf 8 v) 0)
  | _ => enc32 (ofInt (signedOf 32 v) 0)

/-- Magnitude order of finite values. -/
def magLe (a b : Fp) : Bool :=
  match a, b with
  | .fin _ m e, .fin _ n g =>
    let q := min e g
    atExp false m e q ≤ atExp false n g q
  | _, _ => true

/-- 32 FP32 values packed as an MXFP8 block: scale byte and 32 element bytes (R107). -/
def packBlock (e5 : Bool) (xs : List Word32) : Nat × List Nat :=
  let f := if e5 then fmtE5m2 else fmtE4m3
  let emax : Int := if e5 then 15 else 8
  let vs := xs.map dec32
  if vs.any (fun v => !v.isFin) then (0xFF, xs.map (fun _ => 0))
  else
    let big := vs.foldl (fun a v => if magLe a v then v else a) (.fin false 0 0)
    match big with
    | .fin _ m e =>
      if m = 0 then (0x7F, xs.map (fun _ => 0))
      else
        let sc : Int := max 0 (min 254 (e + Nat.log2 m - emax + 127))
        (sc.toNat, vs.map (fun v => fp8Convert f (fpMul v (.fin false 1 (127 - sc)))))
    | _ => (0xFF, [])

end Sys2Proof.Machine
end

