-- ==== Sys2Proof/Machine/Operands.lean ====
section
/-! DEFINITION. How an instruction issues (R59, R191, R197 to R201), its operand fields, and the local address space of a
core (R56, R57, R61, R62, R77, R85, R189). -/

namespace Sys2Proof.Machine

/-! ## Issue -/

/-- A region's clock runs and its cores may issue: it is on, not fenced (R199, R361), not relocking (R349), and its half's
tick generator runs (R364). -/
def State.regionRuns (s : State) (r : Region) : Bool :=
  s.regionOn r && !(s.pow.fenced.contains r) && !(s.pow.relocking.contains r) && s.runs (halfOf r)

/-- A core may issue: its region runs, it has not stopped (R199), and its vat runs or drains (R259). -/
def State.coreIssues (s : State) (c : CoreId) : Bool :=
  s.regionRuns (regionOf c) && !(s.core c).halted &&
  match s.vatOf c with
  | some v => s.vstate v = 2 || s.vstate v = 3
  | none => false

/-- A thread may issue: its core may, and it is ready (R59). -/
def State.canIssue (s : State) (t : Site) : Bool :=
  s.coreIssues t.core && decide ((s.thread t).status = .ready)

/-- The program counter of a thread moved on. -/
def State.setPc (s : State) (t : Site) (n : Nat) : State := s.modThread t (fun h => { h with pc := n })
/-- A scalar register of a thread written. -/
def State.setS (s : State) (t : Site) (r : BitVec 5) (w : Word64) : State := s.modThread t (fun h => h.setS r w)
/-- A vector register of a thread written. -/
def State.setV (s : State) (t : Site) (r : BitVec 3) (w : List Word32) : State := s.modThread t (fun h => h.setV r w)
/-- A thread's status set. -/
def State.setStatus (s : State) (t : Site) (x : ThreadStatus) : State := s.modThread t (fun h => { h with status := x })

/-- An instruction at the head of its thread. A thread that may not issue, or that an interlock holds, stays as it is. An
instruction that fails its checks faults with the first status of R198 and does nothing else; seq is false for an
instruction without a successor by sequential flow, which alone may stand at index 2,047 (R185). Otherwise the effect
takes place with the program counter at the next index. -/
def issue (s : State) (t : Site) (hold seq : Bool) (checks : List (Bool × Status)) (eff : State → State) : Result :=
  if !s.canIssue t || hold then .next s
  else
    match firstFault (checks ++ [(seq && decide ((s.thread t).pc = 2047), .address)]) with
    | some st => .next (s.threadFault t st)
    | none => .next (eff (if seq then s.setPc t ((s.thread t).pc + 1) else s))

/-- A data fault: the word read has a double-bit error; no data are delivered and the vat stops (R197, R24, R66). -/
def State.dataFault (s : State) (t : Site) : State :=
  (s.eccMet t.core).threadFault t .eccfatal

/-! ## Scalar operands (R204) -/

/-- A 32-bit immediate, sign-extended. -/
def sext32 (w : BitVec 32) : Word64 := w.signExtend 64
/-- The second operand y. -/
def yOf (h : Thread) (f : FmtA) : Word64 := if f.i = 1 then sext32 f.imm else h.sreg f.b
/-- The operand fields of a two-operand scalar instruction are well used (R201, R204). -/
def badA (f : FmtA) : Bool := (f.i = 1 && f.b ≠ 0) || (f.i = 0 && f.imm ≠ 0)
/-- A condition code of COND holds for two scalar values (R191). -/
def cond64 (code : Nat) (a b : Word64) : Bool :=
  if code = 0 then true
  else if code = 1 then a = b
  else if code = 2 then a ≠ b
  else if code = 3 then a.slt b
  else if code = 4 then !a.slt b
  else if code = 5 then a.ult b
  else if code = 6 then !a.ult b
  else false

/-- A scalar instruction s[D] = op (s[A], y) whose FUNC must satisfy a test. -/
def scalarOp (s : State) (t : Site) (f : FmtA) (badFunc : Bool) (op : Word64 → Word64 → Word64) : Result :=
  issue s t false true [(badA f || badFunc, .illegal)]
    (fun u => u.setS t f.d (op ((s.thread t).sreg f.a) (yOf (s.thread t) f)))

/-! ## The local address space (R56) -/

/-- The kinds of range of the table; the flag names tile B or activation buffer 1. -/
inductive Space where
  | cream | spm
  | plane (b : Bool)
  | window (b : Bool)
  | abuf (b : Bool)
  | ctrl
  deriving DecidableEq, Repr

/-- The table of R56 with G bank groups powered (R62): base, size, kind. -/
def spaces (g : Nat) : List (Nat × Nat × Space) :=
  [(0x000000, 0x180000, .cream), (0x200000, 49152 * g, .spm),
   (0x300000, 0x4000, .plane false), (0x304000, 0x4000, .plane false),
   (0x308000, 0x4000, .plane true), (0x30C000, 0x4000, .plane true),
   (0x310000, 0x4000, .window false), (0x314000, 0x4000, .window true),
   (0x320000, 0x2100, .abuf false), (0x324000, 0x2100, .abuf true),
   (0x3F0000, 0x20, .ctrl)]

/-- The range that holds all n bytes from an address on, none where R57 faults. -/
def spaceOf (g a n : Nat) : Option Space :=
  ((spaces g).find? (fun e => e.1 ≤ a && a + n ≤ e.1 + e.2.1 && 0 < n)).map (fun e => e.2.2)

/-- The powered groups of a core. -/
def Core.groups (k : Core) : Nat := k.gate.toNat
/-- The range of an access in a core. -/
def Core.spaceOf (k : Core) (a n : Nat) : Option Space := Machine.spaceOf k.groups a n
/-- The accesses that R57 lets through: inside one range, and in aligned words in tiles and activation buffers. -/
def Core.reach (k : Core) (a n : Nat) : Option Space :=
  match k.spaceOf a n with
  | some .cream => some .cream
  | some .spm => some .spm
  | some x => if a % 4 = 0 && n % 4 = 0 then some x else none
  | none => none
/-- A range in the powered scratchpad. -/
def Core.inSpm (k : Core) (a n : Nat) : Bool := decide (k.spaceOf a n = some .spm)

/-- The word of 32 bits at an address, as stored. -/
def Core.word (k : Core) (a : Nat) : Word32 := w32 (memNat k.mem a 4)
/-- The word of 32 bits at an address replaced. -/
def Core.putWord (k : Core) (a : Nat) (w : Word32) : Core := { k with mem := memPut k.mem a (leBytes 4 w.toNat) }
/-- The base of a tile's sum plane. -/
def tileBase (b : Bool) : Nat := if b then 0x308000 else 0x300000
/-- The (sum, error) pair of a tile's element (R75). -/
def Core.pair (k : Core) (b : Bool) (e : Nat) : Word32 × Word32 :=
  (k.word (tileBase b + 4 * e), k.word (tileBase b + 0x4000 + 4 * e))
/-- The pair of a tile's element replaced. -/
def Core.putPair (k : Core) (b : Bool) (e : Nat) (p : Word32 × Word32) : Core :=
  (k.putWord (tileBase b + 4 * e) p.1).putWord (tileBase b + 0x4000 + 4 * e) p.2
/-- The base of a tile's collapsed window. -/
def windowBase (b : Bool) : Nat := if b then 0x314000 else 0x310000
/-- A read of a collapsed window: sum plus error, rounded once (R77). -/
def Core.windowWord (k : Core) (b : Bool) (a : Nat) : Word32 := collapse32 (k.pair b ((a - windowBase b) / 4))
/-- n consecutive words of a collapsed window, as bytes. -/
def Core.windowBytes (k : Core) (b : Bool) (a : Nat) : Nat → List Byte
  | 0 => []
  | n + 1 => leBytes 4 (k.windowWord b a).toNat ++ k.windowBytes b (a + 4) n
/-- A write to a collapsed window: the sum takes the value, the error +0.0 (R77). -/
def Core.putWindow (k : Core) (b : Bool) (a : Nat) : List Byte → Core
  | b0 :: b1 :: b2 :: b3 :: bs =>
    (k.putPair b ((a - windowBase b) / 4) (w32 (ofLe [b0, b1, b2, b3]), 0)).putWindow b (a + 4) bs
  | _ => k

/-! ## Error correction in cream and scratchpad (R24, R66) -/

/-- The bytes of the word that carries check bits together: 8 in cream, 4 in scratchpad. -/
def eccSize (w : Nat) : Nat := if w < 0x180000 then 8 else 4
/-- An ECC word overlaps n bytes from an address. -/
def eccTouches (a n w : Nat) : Bool := w < a + n && a < w + eccSize w
/-- A read of n bytes meets a double-bit error. -/
def Core.doubleAt (k : Core) (a n : Nat) : Bool := k.eccDouble.any (eccTouches a n)
/-- Single-bit errors in some words corrected and counted, those in cream by line, tick and the hour's ticks. -/
def Core.countWords (k : Core) (t h : Nat) (ws : List Nat) : Core :=
  { k with eccCorrected := satAdd 16 k.eccCorrected ws.length
           fixLog := k.fixLog ++ (ws.filter (fun w => w < 0x180000)).map (fun w => (w / 512, t, h)) }
/-- A read of n bytes corrects single-bit errors in the data delivered and counts them. -/
def Core.countSingles (k : Core) (t h a n : Nat) : Core := k.countWords t h (k.eccSingle.filter (eccTouches a n))
/-- Corrected errors of a read counted. -/
def State.readCounted (s : State) (c : CoreId) (a n : Nat) : State := s.modCore c (fun k => k.countSingles s.now s.hour a n)
/-- The words of check bits that n bytes cover only in part: a write there reads, merges and rewrites them (R23, R64). -/
def coversPart (a n w : Nat) : Bool := eccTouches a n w && !(a ≤ w && w + eccSize w ≤ a + n)
/-- Corrected errors of the words that a write merges, counted. -/
def State.mergeCounted (s : State) (c : CoreId) (a n : Nat) : State :=
  s.modCore c (fun k => k.countWords s.now s.hour (k.eccSingle.filter (coversPart a n)))
/-- A write rewrites the words that it touches with new check bits; a double-bit error in a word that it covers only in part stays. -/
def Core.healed (k : Core) (a n : Nat) : Core :=
  { k with eccSingle := k.eccSingle.filter (fun w => !eccTouches a n w)
           eccDouble := k.eccDouble.filter (fun w => !eccTouches a n w || coversPart a n w) }

/-- Bytes written by a unit of the core, with new check bits. -/
def Core.putBytes (k : Core) (a : Nat) (bs : List Byte) : Core := { k.healed a bs.length with mem := memPut k.mem a bs }

/-! ## Core control words (R85) -/

/-- A control word of a core, by its offset. -/
def State.ctrlWord (s : State) (c : CoreId) (off : Nat) : Word64 :=
  let k := s.core c
  if off = 0x00 then
    let p := s.posOf c
    w64 (c.lx.val + c.ly.val * 2 ^ 9 + p.px.val * 2 ^ 18 + p.py.val * 2 ^ 27
      + (match s.vatOf c with | some v => v.val | none => 0) * 2 ^ 36)
  else if off = 0x08 then
    w64 (k.spmWrap.toNat + k.tileAWrap.toNat * 2 + k.tileBWrap.toNat * 4 + k.eccFatal.toNat * 8
      + k.eccCorrected % 2 ^ 16 * 2 ^ 8 + k.solderHold % 2 ^ 16 * 2 ^ 24)
  else if off = 0x10 then w64 k.gate.toNat
  else w64 k.layerTag.toNat

/-- A write of a control word but the gate: identity and reserved fields are read-only, the status bits [3:0] clear where 1
is written, and writing LAYER_TAG clears the mask of causes reported (R85, R111). -/
def Core.putCtrl (k : Core) (off : Nat) (w : Word64) : Core :=
  if off = 0x08 then
    { k with spmWrap := k.spmWrap && !bitAt w 0, tileAWrap := k.tileAWrap && !bitAt w 1,
             tileBWrap := k.tileBWrap && !bitAt w 2, eccFatal := k.eccFatal && !bitAt w 3 }
  else if off = 0x18 then { k with layerTag := BitVec.ofNat 12 w.toNat, causeMask := 0 }
  else k

/-! ## Bank gating (R61, R62, R67) -/

/-- The exponent b with 4G = 2^b banks. -/
def bankBits (g : Nat) : Nat := if g = 8 then 5 else if g = 4 then 4 else if g = 2 then 3 else 2
/-- h(a) of R61. -/
def bankHash (a : Nat) : Nat := ((a % 32).xor (a / 32 % 32)).xor (a / 1024 % 32)
/-- The word of a bank and row when 2^b banks are powered: the inverse of R62's placing. -/
def wordOfBank (b bank row : Nat) : Nat :=
  let hi := row * 2 ^ b
  hi + (bank.xor (((hi / 32 % 32).xor (hi / 1024 % 32)) % 2 ^ b))
/-- Where the scratchpad byte at an offset stands after the gate goes from g to g', none when its group loses power. -/
def regateByte (g g' o : Nat) : Option Nat :=
  let a := o / 4
  let bank := bankHash a % 2 ^ bankBits g
  if bank < 4 * g' then some (4 * wordOfBank (bankBits g') bank (a / 2 ^ bankBits g) + o % 4) else none
/-- The same for a local address; addresses outside the scratchpad stay. -/
def regateAddr (g g' a : Nat) : Option Nat :=
  if 0x200000 ≤ a && a < 0x300000 then (regateByte g g' (a - 0x200000)).map (· + 0x200000) else some a
/-- The gate word written with a valid G: groups switched off lose their content, groups switched on are cleared. -/
def Core.setGate (k : Core) (g : Nat) : Core :=
  if g = k.groups then k
  else
    let move := regateAddr k.groups g
    { k with
      gate := BitVec.ofNat 4 g
      mem := k.mem.foldl (fun m e => match move e.1 with | some a => memSet m a e.2 | none => m) []
      eccSingle := k.eccSingle.filterMap move
      eccDouble := k.eccDouble.filterMap move }

/-! ## Reading and writing local bytes -/

/-- n bytes of the local space from an address that R57 lets through. -/
def State.readLocal (s : State) (c : CoreId) (a n : Nat) : List Byte :=
  let k := s.core c
  match k.spaceOf a n with
  | some (.window b) => k.windowBytes b a (n / 4)
  | some .ctrl =>
    ((leBytes 8 (s.ctrlWord c 0x00).toNat ++ leBytes 8 (s.ctrlWord c 0x08).toNat ++ leBytes 8 (s.ctrlWord c 0x10).toNat
      ++ leBytes 8 (s.ctrlWord c 0x18).toNat).drop (a - 0x3F0000)).take n
  | _ => memBytes k.mem a n

/-- Bytes written plainly to a range that R57 lets through, control words apart. -/
def Core.writeLocal (k : Core) (a : Nat) (bs : List Byte) : Core :=
  match k.spaceOf a bs.length with
  | some (.window b) => k.putWindow b a bs
  | some .ctrl => k
  | some _ => { k.healed a bs.length with mem := memPut k.mem a bs }
  | none => k

/-- One word accumulated in scratchpad, in FP32 (mode 1) or INT32 (mode 2), with its flag (R65). -/
def State.accWord (s : State) (c : CoreId) (mode a : Nat) (w : Word32) : State :=
  let k := s.core c
  if mode = 1 then s.setCore c ((k.healed a 4).putWord a (add32 (k.word a) w))
  else
    let (v, wrapped) := int32Add (k.word a) w
    let s1 := s.setCore c ((k.healed a 4).putWord a v)
    if wrapped then s1.spmWrapped c else s1

/-- Consecutive words accumulated in turn. -/
def State.accWords (s : State) (c : CoreId) (mode a : Nat) : List Word32 → State
  | [] => s
  | w :: ws => (s.accWord c mode a w).accWords c mode (a + 4) ws

/-- Bytes as words of 32 bits. -/
def toWords : List Byte → List Word32
  | b0 :: b1 :: b2 :: b3 :: bs => w32 (ofLe [b0, b1, b2, b3]) :: toWords bs
  | _ => []
/-- Words as bytes. -/
def ofWords (ws : List Word32) : List Byte := ws.flatMap (fun w => leBytes 4 w.toNat)

/-- Bytes stored: plainly (mode 0) or accumulating (R65). -/
def State.storeLocal (s : State) (c : CoreId) (mode a : Nat) (bs : List Byte) : State :=
  if mode = 0 then s.modCore c (fun k => k.writeLocal a bs) else s.accWords c mode a (toWords bs)

/-- A delivered flit's valid bytes written (R145). An accumulate, or a store that merges a word, reads the word first: errors that it
corrects are counted, and a double-bit error there delivers nothing and is a hardware stop (R65, R66, R361). -/
def State.landFlit (s : State) (c : CoreId) (f : Flit) : State :=
  let k := s.core c
  let bs := f.data.take f.bytes
  let bad : Bool := k.eccDouble.any (fun w => if f.op ≠ 0 then eccTouches f.dstAddr f.bytes w else coversPart f.dstAddr f.bytes w)
  if bad then (s.eccMet c).eccStopHolder c
  else
    let s1 := if f.op ≠ 0 then s.readCounted c f.dstAddr f.bytes else s.mergeCounted c f.dstAddr f.bytes
    s1.storeLocal c f.op f.dstAddr bs

/-! ## Interlocks (R74, R76, R225) -/

/-- The tile that a range lies in. -/
def tileOfSpace : Space → Option Bool
  | .plane b => some b
  | .window b => some b
  | _ => none
/-- The tiles that a MAC or MACA targets: a MACA's span may reach the other tile (R224). -/
def MacJob.tiles (j : MacJob) : List Bool :=
  let b := decide (j.f.tile = 1)
  if j.attention then
    if 4 * j.f.feat.toNat + 2048 * (j.f.tok.toNat + 1) ≤ 4096 then [b]
    else if 4096 ≤ 4 * j.f.feat.toNat then [!b] else [b, !b]
  else [b]
/-- The MAC jobs of a core, running first. -/
def Core.jobs (k : Core) : List MacJob := k.macRun.toList ++ k.macWait.toList
/-- A tile is busy: a MAC or MACA issued and not complete targets it (R76). -/
def Core.tileBusy (k : Core) (b : Bool) : Bool := k.jobs.any (fun j => j.tiles.contains b)
/-- The range is in a busy tile. -/
def Core.busyAt (k : Core) (a n : Nat) : Bool :=
  match (k.spaceOf a n).bind tileOfSpace with
  | some b => k.tileBusy b
  | none => false
/-- The range is in an activation buffer that the running MAC or MACA reads: from its first line, which one that waits for its
weight-bus span has not read, until it completes (R74). -/
def Core.bufRead (k : Core) (a n : Nat) : Bool :=
  match k.spaceOf a n with
  | some (.abuf b) => k.macRun.toList.any (fun j => j.swept && decide (j.f.buf = 1) == b)
  | _ => false
/-- A move that reads a tile is in progress (R76). -/
def Core.tileRead (k : Core) (b : Bool) : Bool :=
  k.moves.any (fun m => (k.spaceOf m.src m.len).bind tileOfSpace == some b)
/-- Two ranges overlap. -/
def overlap (a n b m : Nat) : Bool := a < b + m && b < a + n
/-- The thread's TMOV in progress writes a tile or an activation buffer that a later instruction of it names (R225). -/
def Core.movesInto (k : Core) (t : Fin 16) (tiles : List Bool) (buf : Option Bool) : Bool :=
  k.moves.any (fun m => m.thread = t &&
    match k.spaceOf m.dst m.len with
    | some (.plane b) => tiles.contains b
    | some (.window b) => tiles.contains b
    | some (.abuf b) => buf == some b
    | _ => false)
/-- Released hand-off flits written, but for those that an activation buffer in use holds back (R44, R74). -/
def State.landReleased (s : State) (c : CoreId) : State :=
  let k := s.core c
  let stay := k.released.filter (fun f => k.bufRead f.dstAddr f.bytes)
  (k.released.filter (fun f => !k.bufRead f.dstAddr f.bytes)).foldl (fun u f => u.landFlit c f)
    (s.setCore c { k with released := stay })
/-- The thread's TMOV in progress holds its later reads and writes of the destination and writes of the source (R225). -/
def Core.heldByMove (k : Core) (t : Fin 16) (write : Bool) (a n : Nat) : Bool :=
  k.moves.any (fun m => m.thread = t && (overlap a n m.dst m.len || (write && overlap a n m.src m.len)))

/-! ## Addresses of loads and stores (R189) -/

/-- The effective address. -/
def effAddr (h : Thread) (f : FmtM) : Nat := (h.sreg f.base + f.offset.signExtend 64).toNat
/-- A vector register named in D[10:8]. -/
def vregOf (d : BitVec 5) : BitVec 3 := d.setWidth 3

/-- A load's address check: n bytes of width, vec for VLD. -/
def badLoad (k : Core) (vec : Bool) (a n : Nat) : Bool :=
  let al := if vec then 4 else n
  if 2 ^ 22 ≤ a || a % al ≠ 0 then true
  else
    match k.reach a n with
    | none => true
    | some .spm => false
    | some .cream => !(vec || n = 4 || n = 8)
    | some .ctrl => vec || n ≠ 8
    | some _ => vec || n ≠ 4

/-- A store's address check, with its ACC mode. -/
def badStore (k : Core) (vec : Bool) (acc a n : Nat) : Bool :=
  let al := if vec then 4 else n
  if 2 ^ 22 ≤ a || a % al ≠ 0 then true
  else
    match k.reach a n with
    | none => true
    | some .spm => false
    | some .cream => true
    | some .ctrl => vec || n ≠ 8 || acc ≠ 0
    | some _ => vec || n ≠ 4 || acc ≠ 0

/-! ## Vector operands (R208) -/

/-- 64 lanes from a function of the lane number. -/
def lanes (f : Nat → Word32) : List Word32 := (upTo 64).map f
/-- The second vector operand, broadcast when SB = 1. -/
def vbOf (h : Thread) (f : FmtV) : List Word32 :=
  if f.sb = 1 then List.replicate 64 ((h.sreg f.s).setWidth 32) else h.vreg f.vb
/-- VB and S are used as SB says: the one not named is zero (R201). -/
def badSb (f : FmtV) : Bool := (f.sb = 1 && f.vb ≠ 0) || (f.sb = 0 && f.s ≠ 0)
def badRsvV (f : FmtV) : Bool := f.rsv1 ≠ 0 || f.rsv2 ≠ 0

end Sys2Proof.Machine
end

