-- ==== Sys2Proof/Machine/Net.lean ====
section
/-! DEFINITION. Messages and their injection into the mesh (R143 to R149, R154, R172, R178). -/

namespace Sys2Proof.Machine

/-- What a message carries beside its data. -/
structure Msg where
  vat : VatId
  vc : Fin 2 := 1
  cls : Nat := 0
  flow : Nat := 0
  op : Nat := 0
  src : CoreId
  dst : RouterId
  addr : Nat := 0
  mcast : Bool := false
  mdir : Fin 4 := 0
  mspan : Nat := 0
  chain : Option Nat := none
  join : Option (Nat × Nat) := none
  counted : Bool := false
  thread : Option (Fin 16) := none
  uid : Nat := 0
  ack : Bool := false
  seam : Option (Fin 16) := none
  toPort : Bool := false
  deriving DecidableEq, Repr

/-- The flits of a message of n bytes: 64 bytes each, the last with the rest; an acknowledgement is one flit without data (R144, R145,
R178). mid names the message. -/
def Msg.flits (m : Msg) (mid : Nat) (data : List Byte) : List Flit :=
  let n := data.length
  let c := if m.ack then 1 else ceilDiv n 64
  (upTo c).map (fun i =>
    { dstPx := m.dst.px, dstPy := m.dst.py, vat := m.vat, vc := m.vc, cls := m.cls, head := i = 0, tail := i + 1 = c,
      mcast := m.mcast, mdir := m.mdir, mspan := m.mspan, chain := m.chain, join := m.join, dstAddr := m.addr + 64 * i, op := m.op,
      flow := m.flow, src := m.src, bytes := min 64 (n - 64 * i), data := (data.drop (64 * i)).take 64, mid := mid,
      counted := m.counted, thread := m.thread, uid := m.uid, ack := m.ack, seam := m.seam, toPort := m.toPort })

/-- The physical position one hop away, none off the grid. Directions: 0 north, 1 east, 2 south, 3 west. -/
def neighbour (r : RouterId) (d : Fin 4) : Option RouterId :=
  let x := r.px.val
  let y := r.py.val
  let p := if d = 0 then (x, y - 1, decide (0 < y)) else if d = 1 then (x + 1, y, true)
           else if d = 2 then (x, y + 1, true) else (x - 1, y, decide (0 < x))
  if p.2.2 then
    match toFin? 512 p.1, toFin? 384 p.2.1 with
    | some a, some b => some ⟨a, b⟩
    | _, _ => none
  else none
/-- A position that a chain passes by its detour: its router is fenced, or its core has been moved away (R14, R156). -/
def State.bypassed (s : State) (r : RouterId) : Bool :=
  (s.router r).fenced || s.pow.remap.any (fun p => defaultPos p.1 = r)
/-- The first position past another in a direction that a chain does not have to pass by, itself included when told to. -/
def State.firstWorking (s : State) (d : Fin 4) : Nat → RouterId → Option RouterId
  | 0, _ => none
  | n + 1, r =>
    match neighbour r d with
    | none => none
    | some q => if s.bypassed q then s.firstWorking d n q else some q

/-- A flit that has come to a router inside its destination region is steered to the spare its target was moved to (R148).
A chained multicast keeps its line; one that has come to the place where its chain begins becomes a chain (R155, R174). -/
def State.steer (s : State) (r : RouterId) (f : Flit) : Flit :=
  if f.mcast || f.toPort then f
  else
    match f.join with
    | some (ex, ey) =>
      if f.dstPx = r.px.val ∧ f.dstPy = r.py.val then { f with mcast := true, joined := true, join := none, dstPx := ex, dstPy := ey }
      else f
    | none =>
    match toFin? 512 f.dstPx, toFin? 384 f.dstPy with
    | some x, some y =>
      if regionAt ⟨x, y⟩ = regionAt r then
        match s.pow.remap.find? (fun p => defaultPos p.1 = ⟨x, y⟩) with
        | some p => { f with dstPx := p.2.px, dstPy := p.2.py }
        | none => f
      else f
    | _, _ => f

/-- Flits placed behind an input's queue, each with its place in the order of arrival. -/
def State.enqueue (s : State) (r : RouterId) (inp : Fin 5) (f : Flit) : State :=
  let g := { s.steer r f with age := s.seq, collided := false, served := [] }
  let s1 := s.modRouter r (fun x => { x with inq := kset x.inq (inp, g.vc) (kget [] x.inq (inp, g.vc) ++ [g]) })
  { s1 with seq := s.seq + 1 }

/-- A message injected at a router's local input (R143). -/
def State.injectAt (s : State) (r : RouterId) (m : Msg) (data : List Byte) : State :=
  (m.flits s.seq data).foldl (fun a f => a.enqueue r 4 f) s
/-- A chained multicast as it leaves a sender that has been moved to a spare: it goes to the first working router of its line past the
sender's default position and becomes a chain there (R155, R156). -/
def State.joinChain (s : State) (m : Msg) : Msg :=
  if m.mcast && decide (s.posOf m.src ≠ defaultPos m.src) then
    match s.firstWorking m.mdir 512 (defaultPos m.src) with
    | some q => { m with mcast := false, join := some (m.dst.px.val, m.dst.py.val), dst := q }
    | none => m
  else m
/-- A message injected at its sender's local input (R143). -/
def State.inject (s : State) (m : Msg) (data : List Byte) : State := s.injectAt (s.posOf m.src) (s.joinChain m) data

/-- A logical core from coordinates, when the grid has it. -/
def coreOf (x y : Nat) : Option CoreId :=
  match toFin? 496 x, toFin? 384 y with
  | some a, some b => some ⟨a, b⟩
  | _, _ => none

/-- The logical core i steps from another in a multicast direction (R154). -/
def stepCore (c : CoreId) (d : Fin 4) (i : Nat) : Option CoreId :=
  if d = 0 then (if i ≤ c.ly.val then coreOf c.lx (c.ly - i) else none)
  else if d = 1 then coreOf (c.lx + i) c.ly
  else if d = 2 then coreOf c.lx (c.ly + i)
  else if i ≤ c.lx.val then coreOf (c.lx - i) c.ly else none

/-- The targets of a multicast, none where one lies outside the logical grid. -/
def mcastTargets (c : CoreId) (d : Fin 4) (span : Nat) : List (Option CoreId) := (upTo span).map (fun i => stepCore c d (i + 1))

/-- The multicast faults with ADDRESS: no target, one outside the grid, or a column span over the seam (R154). -/
def badMcast (c : CoreId) (d : Fin 4) (span : Nat) : Bool :=
  span = 0 || (mcastTargets c d span).any (fun x =>
    match x with
    | none => true
    | some y => halfOf (regionOf y) != halfOf (regionOf c))

/-- The physical position a chain runs towards: the default position of its last target. -/
def mcastEnd (c : CoreId) (d : Fin 4) (span : Nat) : RouterId :=
  match stepCore c d span with
  | some x => defaultPos x
  | none => defaultPos c

/-- Sends of a thread, and messages of a descriptor, that await acknowledgement (R178). -/
def State.awaitAck (s : State) (c : CoreId) (t : Fin 16) (n : Nat) : State :=
  s.modCore c (fun k => k.modThread t (fun h => { h with undelivered := h.undelivered + n }))

/-! ## SIGNAL messages (R168, R171, R172) -/

/-- VAT_SYNC_MAP of an id: valid, half, index. -/
def State.syncMap (s : State) (v : VatId) (i : Vid) : Option (Half × Nat) :=
  let w := s.vreg v (.syncMap i)
  if bitAt w 0 then some (if bitAt w 1 then .south else .north, fld w 15 2) else none

/-- The id under whose registers the model keeps the entry of a vat's id: the least of the vat's ids that name one physical counter, so
that two ids of one entry are one counter (R168, R171). -/
def State.sameEntry (s : State) (v : VatId) (i : Vid) : Vid :=
  match s.syncMap v i with
  | none => i
  | some p =>
    let ids := s.regs.filterMap (fun e =>
      match e.1 with
      | .vat u (.syncMap j) => if u = v ∧ s.syncMap v j = some p then some j else none
      | _ => none)
    ids.foldl (fun a j => if j.val < a.val then j else a) i

/-- The router of a counter store (R168). -/
def State.storeRouter (s : State) (h : Half) (col : Fin 16) : RouterId :=
  let off := if s.pow.storesMoved.contains (h, col) then 16 else 15
  ⟨⟨(32 * col.val + off) % 512, Nat.mod_lt _ (by decide)⟩, if h = .north then 111 else 272⟩

/-- The column of the store that holds a physical index. -/
def storeCol (index : Nat) : Fin 16 := ⟨index / 1024 % 16, Nat.mod_lt _ (by decide)⟩

/-- The payload of a SIGNAL flit (R172). -/
def signalBytes (kind gen vid index add value : Nat) : List Byte :=
  leBytes 1 kind ++ leBytes 1 gen ++ leBytes 2 vid ++ leBytes 2 index ++ leBytes 2 add ++ leBytes 4 value ++ leBytes 4 0

/-- A SIGNAL flit sent from a core to the store of an id; the core counts it until it has been taken (R44). A vat that holds a share of
no working seam port is caught at injection when the store lies in the other half (R20, R179). -/
def State.sendSignal (s : State) (c : CoreId) (v : VatId) (i : Vid) (kind gen add : Nat) : State :=
  match s.syncMap v i with
  | none => s
  | some (h, ix) =>
    if halfOf (regionOf c) ≠ h && !s.crossesSeam v then s.vatFault v c
    else
      (s.modCore c (fun k => { k with signalsOut := k.signalsOut + 1 })).inject
        { vat := v, cls := 3, src := c, dst := s.storeRouter h (storeCol ix), counted := true, toPort := true }
        (signalBytes kind gen i (ix % 1024) add 0)

/-- An id of a format-W instruction is invalid (R171). -/
def State.badVid (s : State) (c : CoreId) (i : BitVec 12) : Bool :=
  match s.vatOf c with
  | some v => (s.syncMap v ⟨i.toNat, i.isLt⟩).isNone
  | none => true

/-! ## Mirrors (R173) -/

/-- A counter's notify rectangle holds a core. -/
def State.inRect (s : State) (v : VatId) (i : Vid) (c : CoreId) : Bool :=
  let w := s.vreg v (.ctr i 1)
  fld w 8 0 ≤ c.lx.val && c.lx.val ≤ fld w 17 9 && fld w 26 18 ≤ c.ly.val && c.ly.val ≤ fld w 35 27
/-- The counter is a barrier. -/
def State.isBarrier (s : State) (v : VatId) (i : Vid) : Bool := s.vfld v (.ctr i 0) 32 32 = 1
/-- An id is in a core's mirror table: the counter sends NOTIFY and its rectangle holds the core. -/
def State.mirrored (s : State) (v : VatId) (i : Vid) (c : CoreId) : Bool :=
  s.vfld v (.ctr i 1) 36 36 = 1 && s.inRect v i c && (s.syncMap v i).isSome
/-- A mirror entry; until a NOTIFY comes it holds the counter's value as loaded, generation 0 and no arrival (R171, R173). -/
def State.mirror (s : State) (v : VatId) (i : Vid) (c : CoreId) : Mirror :=
  let w := (s.ctr v i).loaded0
  kget { value := if bitAt w 32 then 0 else BitVec.ofNat 32 (fld w 31 0) } (s.core c).mirrors i
def State.setMirror (s : State) (i : Vid) (c : CoreId) (m : Mirror) : State :=
  s.modCore c (fun k => { k with mirrors := kset k.mirrors i m })

/-- A value wait is satisfied: (VALUE − T) mod 2^32 < 2^31 (R175). -/
def waitMet (value target : Word32) : Bool := (value - target).toNat < 2 ^ 31

end Sys2Proof.Machine
end

