-- ==== Sys2Proof/Machine/LinkOps.lean ====
section
/-! DEFINITION. Device links: routes, queues of packets and link sequence numbers (R287, R290 to R298). -/

namespace Sys2Proof.Machine

/-- LINK_ID.DEVICE and VALID. -/
def State.deviceId (s : State) : BitVec 16 := BitVec.ofNat 16 (s.rfld .linkId 15 0)
def State.linkUp (s : State) (l : LinkId) : Bool := s.rfld (.linkStatus l) 0 0 = 1
def State.linkRetiredBit (s : State) (l : LinkId) : Bool := s.rfld (.linkStatus l) 1 1 = 1
/-- LINK_CTRL_l.ROLE: 0 general, 1 twin, 2 chain-forward, 3 chain-back (R293). -/
def State.role (s : State) (l : LinkId) : Nat := s.rfld (.linkCtrl l) 1 0
/-- The device at a link's far end. -/
def State.peerDev (s : State) (l : LinkId) : BitVec 16 := BitVec.ofNat 16 (s.rfld (.linkStatus l) 20 5)

/-- A type that only twin links carry (R293). -/
def twinType (ty : BitVec 8) : Bool := ty = 5 || ty = 6

/-- A link may carry a packet: it works, and its role carries the type. Between the twins a twin link carries any packet,
in a mask it is ignored for every type but MIRROR and TWIN (R293, R294). -/
def State.mayCarry (s : State) (l : LinkId) (ty : BitVec 8) : Bool :=
  s.linkUp l && !s.linkRetiredBit l && (if twinType ty then s.role l = 1 else s.role l ≠ 1)

/-- The mask of the first valid route entry whose range holds a device (R294). -/
def State.routeMask (s : State) (dev : BitVec 16) : Option Nat :=
  ((allFin 256).find? (fun i =>
    let w := s.getReg (.linkRoute i 0)
    bitAt w 32 && fld w 15 0 ≤ dev.toNat && dev.toNat ≤ fld w 31 16)).map (fun i => s.rfld (.linkRoute i 1) 35 0)

/-- A packet's flow. -/
def flowOf (p : Packet) : BitVec 16 × VatId × BitVec 16 × VatId := (p.srcDev, p.srcVat, p.dstDev, p.dstVat)
/-- A link of a mask for a packet: the one that its flow has, while that one works, else the one among the working links that the hash of
the flow picks (R294). -/
def State.pickLink (s : State) (p : Packet) (m : Nat) : Option LinkId :=
  let ls := (allFin 36).filter (fun l => m / 2 ^ l.val % 2 = 1 && s.mayCarry l p.ty)
  match kfind s.flows (flowOf p) with
  | some l => if ls.contains l then some l
    else ls[Config.flowHash p.srcDev.toNat p.srcVat p.dstDev.toNat p.dstVat % max 1 ls.length]?
  | none => ls[Config.flowHash p.srcDev.toNat p.srcVat p.dstDev.toNat p.dstVat % max 1 ls.length]?
/-- The link of a packet by the route table (R294). -/
def State.routeOf (s : State) (p : Packet) : Option LinkId :=
  match s.routeMask p.dstDev with
  | none => none
  | some m => s.pickLink p m

/-- The bytes of staging that a parcel takes at a shared port (R161). -/
def Parcel.size : Parcel → Nat
  | .message fs => 64 * fs.length
  | .packet q => q.length.toNat
  | .trip t => t.bytes
/-- A parcel belongs to a vat's traffic in the grid or its ports (R163). -/
def Parcel.ofVat (v : VatId) : Parcel → Bool
  | .message fs => fs.any (fun f => f.vat = v)
  | .packet _ => false
  | .trip t =>
    match t.owner with
    | .entry _ _ => false
    | .prompt _ _ => false
    | _ => t.vat = v
/-- A parcel put behind a participant's queue at a shared port. -/
def State.offer (s : State) (p : SharedPort) (d : Bool) (who : Fin 65) (x : Parcel) : State :=
  let q := s.sched p d
  { s with scheds := kset s.scheds (p, d) { q with waiting := kset q.waiting who (kget [] q.waiting who ++ [x]) } }
/-- A vat's place among the participants. -/
def seatOf (v : VatId) : Fin 65 := ⟨v.val, by have := v.isLt; omega⟩

/-- A packet of this module given to its link, which its flow keeps (R294). The engines of the rim refuse a packet of 0 B or of more than
4,096 B, with a health event (R288). -/
def State.post (s : State) (l : LinkId) (p : Packet) : State :=
  if p.length.toNat = 0 then s.logEvent 0x0032 (statusCode .empty) 2 l
  else if 4096 < p.length.toNat then s.logEvent 0x0032 (statusCode .oversize) 2 l
  else
    let s1 := { s with flows := kset s.flows (flowOf p) l }
    s1.offer (.link l) true (seatOf p.srcVat) (.packet p)
/-- The same, by its route; dropped where it finds none. -/
def State.postRouted (s : State) (p : Packet) : State :=
  match s.routeOf p with
  | some l => s.post l p
  | none => s

/-- The cells of a packet, which are the frames that it takes at a link's far end (R287, R290, R292). -/
def packetFrames (q : Packet) : Nat := 1 + ceilDiv q.length.toNat 32
/-- The lanes of a link in use: the active ones that work, and the spares brought in (R285). -/
def Link.lanes (k : Link) : BitVec 18 :=
  BitVec.ofNat 18 (((allFin 18).filter (fun x => !k.lanesDead.contains x && (decide (x.val < 16) || k.sparesIn.contains x))).map
    (fun x => 2 ^ x.val)).sum
/-- A control cell sent: it acknowledges every packet accepted, returns the credits of the frames freed, and asks for a replay when told to
(R286, R290, R292, R308). -/
def State.sendControl (s : State) (l : LinkId) (ask : Option (BitVec 16) := none) : State :=
  s.modLink l (fun k =>
    { k with owed := 0, sent := k.sent ++ [.control
      { ack := some (k.lseqIn - 1), replay := ask, credits := k.owed, lanes := k.lanes, peerPeriod := BitVec.ofNat 16 s.period,
        dev := s.deviceId, link := BitVec.ofNat 6 l.val, role := BitVec.ofNat 2 (s.role l) }] })
/-- Every 100th cell is a control cell (R286). -/
def State.countCells (s : State) (l : LinkId) (n : Nat) : State :=
  let c := (s.link l).cells + n
  let s1 := s.modLink l (fun k => { k with cells := c % 99 })
  if 99 ≤ c then s1.sendControl l else s1
/-- A packet goes onto the wire under the number it has; the link's replay buffer keeps it and the credits of its frames are used (R290,
R292). -/
def State.putOnWire (s : State) (l : LinkId) (q : Packet) : State :=
  (s.modLink l (fun k =>
    { k with replay := k.replay ++ [q], sent := k.sent ++ [.packet q], framesUsed := k.framesUsed + packetFrames q })).countCells l
    (packetFrames q)
/-- A packet goes onto the wire with the link's next LSEQ (R287). -/
def State.transmit (s : State) (l : LinkId) (p : Packet) : State :=
  (s.modLink l (fun k => { k with lseqOut := k.lseqOut + 1 })).putOnWire l { p with lseq := (s.link l).lseqOut }

/-! ## Records to the twin (R301 to R305) -/

/-- The bytes of a record (log entry 92). -/
def recordSize : LinkRecord → Nat
  | .stream _ _ => 64
  | .kv _ _ _ _ _ bs => 16 + bs.length
  | .commit _ m => 24 + 4 * m.tokens.length
  | .fill _ _ sts => 4 + 2 * sts.length
  | .ladle _ _ cs bs es => min 4096 (16 + 8 * cs.length + 8 * bs.length + 72 * es.length)
  | .ended _ _ _ => 8
  | .commitAck _ _ _ => 12
  | .fail _ => 8
  | .handover _ => 8
  | .report _ _ ts _ => 16 + 4 * ts.length
/-- A packet that carries a record to a device. -/
def State.recordPacket (s : State) (ty : BitVec 8) (dev : BitVec 16) (v w : VatId) (r : LinkRecord) : Packet :=
  { ty := ty, last := true, srcDev := s.deviceId, dstDev := dev, srcVat := v, dstVat := w, length := BitVec.ofNat 16 (recordSize r), record := some r }
/-- The device at the other end of the pair. -/
def State.twinDev (s : State) : BitVec 16 := BitVec.ofNat 16 (s.rfld .twinCtrl 15 0)
/-- The working twin links to the twin. -/
def State.twinLinks (s : State) : List LinkId :=
  (allFin 36).filter (fun l => s.role l = 1 && s.linkUp l && !s.linkRetiredBit l && s.peerDev l = s.twinDev)
/-- A vat's record for the twin takes its place among the vat's packets on a twin link: the one of its flow by the route table, or, where the
table names none to the twin, any working one in the same way (R294, R301; log entry 92). -/
def State.sendRecord (s : State) (ty : BitVec 8) (v : VatId) (r : LinkRecord) : State :=
  let p := s.recordPacket ty s.twinDev v v r
  match (s.routeOf p).or (s.pickLink p ((s.twinLinks.map (fun l => 2 ^ l.val)).sum)) with
  | some l => s.post l p
  | none => s
/-- The records that wait for the twin links go onto the wire, in order (R303: the mirrors are flushed). -/
def State.flushMirrors (s : State) : State :=
  s.twinLinks.foldl (fun u l =>
    (allFin 65).foldl (fun w who =>
      let q := w.sched (.link l) true
      let xs := kget [] q.waiting who
      let isRec (x : Parcel) : Bool := match x with
        | .packet p => p.record.isSome
        | _ => false
      let w1 := { w with scheds := kset w.scheds (.link l, true) { q with waiting := kset q.waiting who (xs.filter (fun x => !isRec x)) } }
      xs.foldl (fun y x => match x with
        | .packet p => if p.record.isSome then y.transmit l p else y
        | _ => y) w1) u) s
/-- A record sent at once on links, before what waits there (R303). -/
def State.sendNow (s : State) (ls : List LinkId) (r : LinkRecord) : State :=
  ls.foldl (fun u l => u.transmit l (u.recordPacket 6 u.twinDev 0 0 r)) s

/-- An answer to a packet: the ends exchanged, with a status (R287, R297). -/
def answer (p : Packet) (ty : BitVec 8) (st : Status) (data : List Byte) : Packet :=
  { ty := ty, last := true, srcDev := p.dstDev, dstDev := p.srcDev, srcVat := p.dstVat, dstVat := p.srcVat,
    length := BitVec.ofNat 16 data.length, tag := p.tag, status := BitVec.ofNat 8 (statusCode st), data := data }

/-- The links on which a LOAD packet goes on: for each downstream device one of the links whose TREE is out, the same for every packet
of a segment of 64 MiB. -/
def State.treeLinks (s : State) (addr : Nat) : List LinkId :=
  let out_ := (allFin 36).filter (fun x => s.rfld (.linkCtrl x) 12 11 = 2 && s.mayCarry x 7)
  ((out_.map s.peerDev).eraseDups).filterMap (fun d =>
    let ls := out_.filter (fun x => s.peerDev x = d)
    ls[addr / 67108864 % max 1 ls.length]?)
/-- The 8 zero bytes of an ACK. -/
def ackBytes : List Byte := List.replicate 8 0
/-- LINK_STAT_l.REFUSED raised (R289, R294, R298). -/
def State.countRefused (s : State) (l : LinkId) : State := s.bumpR (.linkStat l) 63 48 1

/-! ## Stack addresses (R249) -/

/-- Where a stack byte address lies: stack and offset, none where no window holds it. -/
def stackPlace (a : Nat) : Option (Nat × Nat) :=
  if a < 1152000000000 then some (a / 4096 % 24, a / 4096 / 24 * 4096 + a % 4096)
  else if 0x100000000000 ≤ a then
    let s := (a - 0x100000000000) / 0x1000000000
    let o := (a - 0x100000000000) % 0x1000000000
    if s < 24 ∧ o < 48000000000 then some (s, o) else none
  else none
/-- One key for a stack's byte, whichever window names it. -/
def stackKey (a : Nat) : Nat :=
  match stackPlace a with
  | some (s, o) => s * 2 ^ 36 + o
  | none => 0
/-- A range lies whole in one window (and in one stack of the site window). -/
def stackRange (a n : Nat) : Bool :=
  if a < 1152000000000 then a + n ≤ 1152000000000
  else
    match stackPlace a with
    | some (_, o) => o + n ≤ 48000000000
    | none => false
/-- n bytes of the stacks. -/
def State.stackRead (s : State) (a : Nat) : Nat → List Byte
  | 0 => []
  | n + 1 => memGet s.stackMem (stackKey a) :: s.stackRead (a + 1) n
/-- The channel of a stack byte is retired (R255). -/
def State.chanRetired (s : State) (a : Nat) : Bool :=
  match stackPlace a with
  | some (x, o) =>
    (match toFin? 24 x with
     | some k => bitAt (s.getReg (.glbStack k)) (o / 4096 % 32)
     | none => true)
  | none => true
/-- The granules that a range touches. -/
def granules (a n : Nat) : List Nat := (upTo (ceilDiv (a % 4096 + n) 4096)).map (fun i => (a / 4096 + i) * 4096)
/-- A range touches a fenced granule. -/
def State.fencedGranule (s : State) (a n : Nat) : Bool := (granules a n).any s.chanRetired
/-- Words with a double-bit error in a range. -/
def State.stackDoubles (s : State) (a n : Nat) : List Nat :=
  s.stackDouble.filter (fun w => (upTo n).any (fun i => stackKey (a + i) / 8 * 8 = w))
/-- A read of the stacks fails with ECCFATAL. -/
def State.stackFails (s : State) (a n : Nat) : Bool := s.fencedGranule a n || !(s.stackDoubles a n).isEmpty
/-- The stack and channel of a word, by its key: channel 32 × stack + its own number. -/
def channelOf (w : Nat) : Nat := 32 * (w / 2 ^ 36) + w % 2 ^ 36 / 4096 % 32
/-- A double-bit error returned: GLB_STACK_n.FATAL counts it, a health event tells of it, and its address is kept for the hour in which three
of them retire its channel (R254, R255). -/
def State.stackFatal (s : State) (w : Nat) : State :=
  match toFin? 24 (w / 2 ^ 36) with
  | some k =>
    let s1 := (s.bumpR (.glbStack k) 55 48 1).logEvent 0x0040 (statusCode .eccfatal) 3 (channelOf w)
    { s1 with stackLog := s1.stackLog ++ [(channelOf w, w, s.now, s.hour)] }
  | none => s
/-- The double-bit errors that a read of a range meets, counted. -/
def State.countStackFatal (s : State) (a n : Nat) : State := (s.stackDoubles a n).foldl State.stackFatal s
/-- The single-bit errors that a read of a range meets are corrected in the data delivered, and GLB_STACK_n.CORRECTED counts them; burnish
writes them back (R254). -/
def State.countStackFixed (s : State) (a n : Nat) : State :=
  (s.stackSingle.filter (fun w => (upTo n).any (fun i => stackKey (a + i) / 8 * 8 = w))).foldl (fun u w =>
    match toFin? 24 (w / 2 ^ 36) with
    | some k => u.bumpR (.glbStack k) 47 32 1
    | none => u) s
/-- Bytes placed in the stacks; a fenced granule discards its part (R255). -/
def State.stackBytes (s : State) (a : Nat) : List Byte → State
  | [] => s
  | b :: bs =>
    (if s.chanRetired a then s else { s with stackMem := memSet s.stackMem (stackKey a) b }).stackBytes (a + 1) bs
/-- A word of the stacks lies whole in a range that is written. -/
def stackCovers (a n w : Nat) : Bool := (upTo 8).all (fun i => (upTo n).any (fun j => stackKey (a + j) = w + i))
/-- Bytes written to the stacks, with new check bits for the words that they cover whole (R254). -/
def State.stackWrite (s : State) (a : Nat) (bs : List Byte) : State :=
  { s with stackSingle := s.stackSingle.filter (fun w => !stackCovers a bs.length w)
           stackDouble := s.stackDouble.filter (fun w => !stackCovers a bs.length w) }.stackBytes a bs

end Sys2Proof.Machine
end

