-- ==== Sys2Proof/Machine/Mesh.lean ====
section
/-! DEFINITION. The mesh: routing, arbitration, links with replay, bypass, delivery, credits (R143 to R158), and the changing of its
tables (R147, R152, R163, R164). -/

namespace Sys2Proof.Machine

/-! ## Places -/

/-- The opposite direction. -/
def opposite (d : Fin 4) : Fin 4 := d + 2
/-- A direction output as one of the five outputs, and back. -/
def outOf (d : Fin 4) : Fin 5 := ⟨d.val, by have := d.isLt; omega⟩
def dirOf (o : Fin 5) : Option (Fin 4) := toFin? 4 o.val

/-- The column of a seam port (R17): 32n + 15, or 32n + 16 when it has moved. -/
def State.seamColumn (s : State) (n : Fin 16) : Nat := 32 * n.val + (if s.rfld (.meshSeam n) 33 33 = 1 then 16 else 15)
/-- The seam port at a router's link between rows 191 and 192. -/
def State.seamAt (s : State) (r : RouterId) (d : Fin 4) : Option (Fin 16) :=
  if (r.py = 191 ∧ d = 2) ∨ (r.py = 192 ∧ d = 0) then
    (allFin 16).find? (fun n => s.seamColumn n = r.px.val && s.rfld (.meshSeam n) 32 32 = 0)
  else none
/-- A link between rows 191 and 192 that no seam port occupies does not exist (R143). -/
def acrossSeam (r : RouterId) (d : Fin 4) : Bool := (r.py = 191 && d = 2) || (r.py = 192 && d = 0)
/-- A rim port's place along its edge: its direction, and the positions of the edge cores of its region that it can attach to (R28, log
entry 15): ports 0 to 15 north, 16 to 31 south, 32 to 79 west and 80 to 127 east. -/
def rimEdge (p : Fin 128) : Fin 4 × List (Nat × Nat) :=
  let n := p.val
  if n < 16 then (0, (upTo 32).map (fun i => (32 * n + i, 0)))
  else if n < 32 then (2, (upTo 32).map (fun i => (32 * (n - 16) + i, 383)))
  else if n < 80 then (3, (upTo 8).map (fun i => (0, 8 * (n - 32) + i)))
  else (1, (upTo 8).map (fun i => (511, 8 * (n - 80) + i)))
/-- The port whose edge a router's outward link lies on. -/
def rimNear (r : RouterId) (d : Fin 4) : Option (Fin 128) :=
  let x := r.px.val
  let y := r.py.val
  if d = 0 ∧ y = 0 then toFin? 128 (x / 32) else if d = 2 ∧ y = 383 then toFin? 128 (16 + x / 32)
  else if d = 3 ∧ x = 0 then toFin? 128 (32 + y / 8) else if d = 1 ∧ x = 511 then toFin? 128 (80 + y / 8) else none
/-- The router of the working edge core that a rim port attaches to: the one bring-up chose, the first along the edge where it has
chosen none (R28, log entry 15). -/
def State.rimRouter (s : State) (p : Fin 128) : Option RouterId :=
  match (kget {} s.rims p).place, (rimEdge p).2 with
  | some r, _ => some r
  | none, (x, y) :: _ =>
    (match toFin? 512 x, toFin? 384 y with
     | some a, some b => some ⟨a, b⟩
     | _, _ => none)
  | none, [] => none
/-- The rim port on a router's outward link: only the one edge core that the port attaches to has it (R28). -/
def State.rimAt (s : State) (r : RouterId) (d : Fin 4) : Option (Fin 128) :=
  match rimNear r d with
  | some k => if s.pow.rimPortsRetired.contains k || s.rimRouter k ≠ some r then none else some k
  | none => none
/-- A rim port's number among the shared ports. -/
def rimShare (p : Fin 128) : Fin 176 := ⟨p.val, by have := p.isLt; omega⟩
/-- Bring-up attaches every rim port to the first edge core of its region whose router works (R28, log entry 15). -/
def State.chooseRims (s : State) : State :=
  (allFin 128).foldl (fun u p =>
    let ok := (rimEdge p).2.filterMap (fun q =>
      match toFin? 512 q.1, toFin? 384 q.2 with
      | some a, some b => if (s.router ⟨a, b⟩).fenced then none else some (⟨a, b⟩ : RouterId)
      | _, _ => none)
    { u with rims := kset u.rims p { kget {} u.rims p with place := ok.head? } }) s

/-! ## Routing (R147, R154 to R158) -/

/-- The first valid entry of a route table that matches a destination, with the output it names. -/
def matchEntry (w : Fin 16 → Word64) (x y : Nat) : Option (Fin 16 × Fin 5) :=
  (allFin 16).findSome? (fun i =>
    let e := w i
    if bitAt e 39 && fld e 8 0 ≤ x && x ≤ fld e 17 9 && fld e 26 18 ≤ y && y ≤ fld e 35 27
    then (toFin? 5 (fld e 38 36)).map (fun o => (i, o)) else none)
/-- The output that a router's committed route table names for a flit. -/
def Router.tableOut (k : Router) (f : Flit) : Option (Fin 5) :=
  (matchEntry (fun i => kget 0 k.routes i) f.dstPx f.dstPy).map Prod.snd

/-- Dimension order: along x first, then along y. -/
def dimOrder (r : RouterId) (f : Flit) : Fin 5 :=
  if r.px.val < f.dstPx then 1 else if f.dstPx < r.px.val then 3
  else if r.py.val < f.dstPy then 2 else if f.dstPy < r.py.val then 0 else 4

/-- The output a flit takes at a router, its bypass and its table entry first. -/
def Router.routeOut (k : Router) (r : RouterId) (f : Flit) : Fin 5 :=
  match f.via with
  | o :: _ => o
  | [] => (k.tableOut f).getD (dimOrder r f)

/-- A router stands on the line of a chained multicast. -/
def onLine (r : RouterId) (f : Flit) : Bool :=
  if f.mdir = 1 || f.mdir = 3 then r.py.val = f.dstPy else r.px.val = f.dstPx
/-- A logical core is a target of a chain: on the sender's line, past the sender, not past the last target (R154); of a NOTIFY's row,
from its first logical x on (R174). -/
def isTarget (f : Flit) (c : CoreId) : Bool :=
  let lastX := 31 * (f.dstPx / 32) + f.dstPx % 32
  if f.mdir = 0 then c.lx = f.src.lx && c.ly.val < f.src.ly.val && f.dstPy ≤ c.ly.val
  else if f.mdir = 1 then
    match f.chain with
    | some x0 => c.ly.val = f.dstPy && x0 ≤ c.lx.val && c.lx.val ≤ lastX
    | none => c.ly = f.src.ly && f.src.lx.val < c.lx.val && c.lx.val ≤ lastX
  else if f.mdir = 2 then c.lx = f.src.lx && f.src.ly.val < c.ly.val && c.ly.val ≤ f.dstPy
  else c.ly = f.src.ly && c.lx.val < f.src.lx.val && lastX ≤ c.lx.val

/-- A position stands ahead of another along the chain. -/
def aheadOf (d : Fin 4) (r q : RouterId) : Bool :=
  if d = 0 then q.px = r.px && q.py.val < r.py.val else if d = 1 then q.py = r.py && r.px.val < q.px.val
  else if d = 2 then q.px = r.px && r.py.val < q.py.val else q.py = r.py && q.px.val < r.px.val

/-- Where a chain's line begins: the sender's default position, or the first core of a NOTIFY's row. -/
def chainOrigin (f : Flit) : RouterId :=
  match f.chain.bind (fun x0 => coreOf x0 f.dstPy) with
  | some c => defaultPos c
  | none => defaultPos f.src
/-- A spare that the chain passes on its own line: a target moved there receives the flit as it passes (R156). -/
def passed (f : Flit) (spare : RouterId) : Bool := aheadOf f.mdir (chainOrigin f) spare

/-- The targets moved off the line whose default positions follow directly, up to the next router of the chain (R156). -/
def State.branchFrom (s : State) (f : Flit) : Nat → RouterId → List CoreId
  | 0, _ => []
  | n + 1, r =>
    match neighbour r f.mdir with
    | none => []
    | some q =>
      let here := (s.pow.remap.filter (fun p => defaultPos p.1 = q && isTarget f p.1 && !passed f p.2)).map Prod.fst
      if s.bypassed q then here ++ s.branchFrom f n q else here
/-- The targets moved off the line that lie behind the place where the chain begins (R155, R156, R174; log entry 77). -/
def State.branchBehind (s : State) (r : RouterId) (f : Flit) : List CoreId :=
  if f.joined then
    (s.pow.remap.filter (fun p => isTarget f p.1 && !passed f p.2 && !aheadOf f.mdir r (defaultPos p.1))).map Prod.fst
  else []
/-- The targets that a router of the chain sends unicast copies. -/
def State.branches (s : State) (r : RouterId) (f : Flit) : List CoreId :=
  if f.mcast && onLine r f && (!s.bypassed r || f.joined) then s.branchBehind r f ++ s.branchFrom f 512 r else []

/-- A chain delivers here. -/
def State.delivers (s : State) (r : RouterId) (f : Flit) : Bool :=
  onLine r f &&
  match s.coreAt r with
  | some c => isTarget f c
  | none => false
/-- Targets a router takes off MSPAN: its own delivery and its branch copies. -/
def State.takes (s : State) (r : RouterId) (f : Flit) : Nat := (s.delivers r f).toNat + (s.branches r f).length

/-- The outputs a flit still has to leave by at a router. -/
def State.wants (s : State) (r : RouterId) (f : Flit) : List (Fin 5) :=
  let k := s.router r
  if f.mcast && f.via.isEmpty then
    let fwd : Fin 5 := (k.tableOut f).getD (if onLine r f then outOf f.mdir else dimOrder r f)
    let all := (if s.delivers r f then [(4 : Fin 5)] else []) ++ (if s.takes r f < f.mspan then [fwd] else [])
    all.filter (fun o => !f.served.contains o)
  else [k.routeOut r f]

/-! ## Dead links and their bypass (R158) -/

/-- The output of the fixed bypass of a dead one: turned counter-clockwise, else the opposite of that. -/
def State.bypassOut (s : State) (r : RouterId) (d : Fin 4) : Option (Fin 4) :=
  let k := s.router r
  let works (x : Fin 4) : Bool := (neighbour r x).isSome && !acrossSeam r x && !k.dead.contains x
  if works (d + 3) then some (d + 3) else if works (d + 1) then some (d + 1) else none

/-- The flit as it leaves for an output: a dead output is replaced by its bypass, none where the flit must wait: flits of the dead
link's replay buffer go before the output's queued flits (R158). -/
def State.towards (s : State) (r : RouterId) (f : Flit) (o : Fin 5) : Option (Fin 5 × Flit) :=
  match dirOf o with
  | none => some (o, f)
  | some d =>
    let k := s.router r
    if k.dead.contains d && f.via.isEmpty then
      if k.redo.any (fun g => g.bdir = d) then none
      else
        match s.bypassOut r d with
        | none => none
        | some b => some (outOf b, { f with bypass := true, bdir := d, orig := kget 0 k.lseqOut d,
                                            via := [outOf b, o, outOf (opposite b)] })
    else some (o, f)

/-! ## Arbitration (R150, R151, R153) -/

/-- The buffer depth behind an output: 16 across a region boundary, 8 inside, 4 at the scratchpad port (R84). -/
def depthOf (r : RouterId) (o : Fin 5) : Nat :=
  match (dirOf o).bind (neighbour r) with
  | some q => if regionAt q = regionAt r then 8 else 16
  | none => 4

/-- The vat's staging at a shared port holds so many bytes (R161). -/
def State.stagedBytes (s : State) (p : SharedPort) (d : Bool) (v : VatId) : Nat :=
  ((kget [] (s.sched p d).waiting (seatOf v)).map Parcel.size).foldl (· + ·) 0

/-- A flit that leaves for a router of a region of another vat travels on VC1, without a flow (R149, log entry 78). -/
def State.demoted (s : State) (r : RouterId) (o : Fin 5) (f : Flit) : Flit :=
  match (dirOf o).bind (neighbour r) with
  | some q => if s.ownerOf (regionAt q) = some f.vat then f else { f with vc := 1, flow := 0 }
  | none => f

/-- A port that a message holds from its first flit to its last can take a flit: it is free for a first one, and a later one belongs to
the message that holds it (R159). -/
def portFree (g : List Flit) (f : Flit) : Bool :=
  match g with
  | [] => true
  | x :: _ => x.mid = f.mid

/-- The output can take a flit now: a credit, room in the replay buffer, room in the port's staging. A seam port that refuses takes
everything, to discard it (R21). -/
def State.accepts (s : State) (r : RouterId) (o : Fin 5) (f : Flit) : Bool :=
  let k := s.router r
  match dirOf o with
  | none => k.deliver.length < 4
  | some d =>
    match s.seamAt r d with
    | some n =>
      let sp := kget {} s.seams n
      let h : Half := if r.py = 191 then .south else .north
      let g := kget [] sp.gather h
      sp.closed || sp.skip.contains f.mid
        || (portFree g f && s.stagedBytes (.mesh (seamShare n)) (decide (h = Half.south)) f.vat + 64 * (g.length + 1) ≤ 8192)
    | none =>
      match s.rimAt r d with
      | some p =>
        let g := (kget {} s.rims p).gather
        portFree g f && s.stagedBytes (.mesh (rimShare p)) true f.vat + 64 * (g.length + 1) ≤ 8192
      | none =>
        (neighbour r d).isSome && !acrossSeam r d && !k.dead.contains d && kget 0 k.used (o, f.vc) < depthOf r o
          && (kget [] k.replay d).length < 16

/-- The head flit of an input's channel that asks for an output and can leave by it: as it would leave. -/
def State.candidate (s : State) (r : RouterId) (o : Fin 5) (i : Fin 5) (vc : Fin 2) : Option Flit :=
  match kget [] (s.router r).inq (i, vc) with
  | [] => none
  | f :: _ =>
    ((s.wants r f).findSome? (fun w =>
      match s.towards r f w with
      | some (x, g) => if x = o then some (s.demoted r o g) else none
      | none => none)).bind (fun g => if s.accepts r o g then some g else none)
/-- The first flit of a dead link's replay buffer, when its bypass leaves by an output that can take it (R158). -/
def State.redoHead (s : State) (r : RouterId) (o : Fin 5) : Option Flit :=
  match (s.router r).redo with
  | f :: _ => if f.via.head? = some o && s.accepts r o (s.demoted r o f) then some (s.demoted r o f) else none
  | [] => none

/-- The oldest of some candidates; of two of one age the earlier in the list. -/
def oldest : List (Fin 5 × Flit) → Option (Fin 5 × Flit)
  | [] => none
  | p :: ps =>
    match oldest ps with
    | none => some p
    | some q => if p.2.age ≤ q.2.age then some p else some q

/-- Where a flit that an output sends comes from: the head of an input's channel, or the replay buffer of a dead link. -/
abbrev Source := Option (Fin 5 × Fin 2)

/-- What an output sends in a cycle (R151): the flit of the entry's owner; else, in a free cycle, a flit of a dead link's replay buffer
(R158, log entry 80), the oldest VC0 flit, or a VC1 flit by round robin. The round robin's first grant after reset begins at north: the
spec gives its pointer no reset value (DESIGN CHOICE, log entry 79). -/
def State.arbitrate (s : State) (r : RouterId) (o : Fin 5) (cyc : Nat) : Option (Source × Flit) :=
  let k := s.router r
  let w := kget 0 k.slots (o, ⟨cyc % 256, Nat.mod_lt _ (by decide)⟩)
  let owner : Option (Fin 5 × Flit) :=
    if bitAt w 0 then
      (toFin? 5 (fld w 3 1)).bind (fun i =>
        (s.candidate r o i 0).bind (fun f => if f.flow = fld w 11 4 && !f.bypass then some (i, f) else none))
    else none
  let vc0 := (allFin 5).filterMap (fun i => (s.candidate r o i 0).map (fun f => (i, f)))
  match owner, s.redoHead r o, oldest vc0 with
  | some p, _, _ => some (some (p.1, 0), p.2)
  | none, some f, _ => some (none, f)
  | none, none, some p => some (some (p.1, 0), p.2)
  | none, none, none =>
    let last := kget 4 k.rr o
    (upTo 5).findSome? (fun j =>
      let i : Fin 5 := ⟨(last + 1 + j) % 5, Nat.mod_lt _ (by decide)⟩
      (s.candidate r o i 1).map (fun f => (some (i, 1), f)))

/-- The VC0 flits at the heads that could have left by an output and did not: each counts once in COLLIDE of its region
(R151); a VC0 bypass flit counts as one too (R158). -/
def State.countCollisions (s : State) (r : RouterId) (o : Fin 5) (won : Source × Flit) : State :=
  let losers := (allFin 5).filter (fun i => won.1 ≠ some (i, 0) &&
    match s.candidate r o i 0 with
    | some f => !f.collided
    | none => false)
  let slotted : Bool := match won.1 with
    | some (_, vc) => vc = 0
    | none => won.2.vc = 0
  let self : Nat := if slotted && won.2.bypass && !won.2.collided then 1 else 0
  let s1 := s.modRouter r (fun k => losers.foldl (fun a i =>
    match kget [] a.inq (i, 0) with
    | f :: fs => { a with inq := kset a.inq (i, 0) ({ f with collided := true } :: fs) }
    | [] => a) k)
  s1.bumpR (.meshRegionStat (regionAt r)) 31 0 (losers.length + self)

/-- A credit on its way back to the router that fed an input (R153). -/
def State.returnCredit (s : State) (r : RouterId) (i : Fin 5) (vc : Fin 2) : State :=
  match dirOf i with
  | none => s
  | some d =>
    if acrossSeam r d then s
    else
      match neighbour r d with
      | none => s
      | some q =>
        let o := outOf (opposite d)
        s.modRouter q (fun k => { k with returning := kset k.returning (o, vc) (kget 0 k.returning (o, vc) + 1) })

/-- A moved target's unicast copy (R156). -/
def copyFor (f : Flit) (p : RouterId) : Flit :=
  { f with mcast := false, vc := 1, flow := 0, mspan := 0, dstPx := p.px, dstPy := p.py, served := [], via := [],
           bypass := false, chain := none, join := none, joined := false }

/-- What a flit that has been sent leaves behind: the rest of a replay buffer, or its input's queue, whose head is gone or still owes its
other copy. -/
def State.leave (s : State) (r : RouterId) (src : Source) (o : Fin 5) (sent : Flit) : State :=
  match src with
  | none => s.modRouter r (fun k => { k with redo := k.redo.drop 1 })
  | some (i, vc) =>
    match kget [] (s.router r).inq (i, vc) with
    | [] => s
    | f :: fs =>
      let mark : Fin 5 := if sent.bypass && !f.bypass then outOf sent.bdir else o
      let more := f.mcast && (s.wants r f).length > 1
      if more then
        s.modRouter r (fun k => { k with inq := kset k.inq (i, vc) ({ f with served := mark :: f.served } :: fs) })
      else
        let s1 := (s.modRouter r (fun k => { k with inq := kset k.inq (i, vc) fs })).returnCredit r i vc
        (s.branches r f).foldl (fun u c => u.enqueue r 4 (copyFor f (u.posOf c))) s1

/-- A vat exists: it holds a placement or is being reset (R259). -/
def State.exists_ (s : State) (v : VatId) : Bool := s.vstate v ≠ 0

/-- A message that a port refuses: its vat stops, as the port's router reports, or a health event follows when its tag names no vat (R19,
R20, R199, R200). -/
def State.refuseMsg (s : State) (f : Flit) (r : RouterId) (unit_ index : Nat) : State :=
  if s.exists_ f.vat then s.vatFault f.vat (s.placeOf r) else s.logEvent 0x0020 0 unit_ index
/-- A message refused by a seam port, counted in its refusal counter (R19). -/
def State.seamRefuse (s : State) (n : Fin 16) (r : RouterId) (f : Flit) : State := (s.bumpR (.meshSeam n) 31 0 1).refuseMsg f r 4 n
/-- A message refused by a rim port, counted in its refusal counter (R20, log entry 81). -/
def State.rimRefuse (s : State) (p : Fin 128) (r : RouterId) (f : Flit) : State :=
  let k := kget {} s.rims p
  { s with rims := kset s.rims p { k with refused := k.refused + 1 } }.refuseMsg f r 0 p

/-- A flit put into a seam port: gathered into its message, which waits for its turn once it is whole; discarded with all of its message
where the port refuses (R21, R159). -/
def State.putSeam (s : State) (r : RouterId) (n : Fin 16) (h : Half) (f : Flit) : State :=
  let sp := kget {} s.seams n
  if sp.skip.contains f.mid then
    if f.tail then { s with seams := kset s.seams n { sp with skip := sp.skip.erase f.mid } } else s
  else if sp.closed then
    { s with seams := kset s.seams n { sp with skip := if f.tail then sp.skip else f.mid :: sp.skip } }.seamRefuse n r f
  else
    let g := kget [] sp.gather h ++ [f]
    if f.tail then
      ({ s with seams := kset s.seams n { sp with gather := kset sp.gather h [] } }).offer (.mesh (seamShare n)) (decide (h = Half.south))
        (seatOf f.vat) (.message g)
    else { s with seams := kset s.seams n { sp with gather := kset sp.gather h g } }

/-- A flit put into a rim port: gathered into its message, which waits for its turn once it is whole, or is refused when it is addressed
to anything but the rim (R20, R160). -/
def State.putRim (s : State) (r : RouterId) (p : Fin 128) (f : Flit) : State :=
  let k := kget {} s.rims p
  let g := k.gather ++ [f]
  if f.tail then
    let s1 := { s with rims := kset s.rims p { k with gather := [] } }
    if f.dstPy = 0x1FF then s1.offer (.mesh (rimShare p)) true (seatOf f.vat) (.message g) else s1.rimRefuse p r f
  else { s with rims := kset s.rims p { k with gather := g } }

/-- A flit put onto a link: on its wire and into the replay buffer, under the link's next number. -/
def State.putLink (s : State) (r : RouterId) (d : Fin 4) (f : Flit) : State :=
  s.modRouter r (fun k =>
    let n := kget 0 k.lseqOut d
    let fresh := f.via.isEmpty || (f.via.length = 3 && f.orig = kget 0 k.lseqOut f.bdir)
    let g := { f with lseq := n, via := f.via.drop 1, mspan := f.mspan - (if f.mcast && fresh then s.takes r f else 0),
                      served := [], joined := false }
    let k1 := if f.bypass && f.via.length = 3 && k.dead.contains f.bdir && f.orig = kget 0 k.lseqOut f.bdir
              then { k with lseqOut := kset k.lseqOut f.bdir ((f.orig + 1) % 64) } else k
    { k1 with wire := kset k1.wire d (kget [] k1.wire d ++ [g]), replay := kset k1.replay d (kget [] k1.replay d ++ [g])
              lseqOut := kset k1.lseqOut d ((n + 1) % 64)
              used := kset k1.used (outOf d, f.vc) (kget 0 k1.used (outOf d, f.vc) + 1) })

/-- A flit put out: onto a link, into a seam port or rim port, or towards delivery. -/
def State.putOut (s : State) (r : RouterId) (o : Fin 5) (f : Flit) : State :=
  match dirOf o with
  | none => s.modRouter r (fun k => { k with deliver := k.deliver ++ [f] })
  | some d =>
    match s.seamAt r d with
    | some n => s.putSeam r n (if r.py = 191 then .south else .north) f
    | none =>
      match s.rimAt r d with
      | some p => s.putRim r p f
      | none => s.putLink r d f

/-- A router works: its region runs and it is not fenced. A region whose cores have stopped still forwards (R199, R366). -/
def State.routerWorks (s : State) (r : RouterId) : Bool :=
  s.regionOn (regionAt r) && !(s.pow.relocking.contains (regionAt r)) && !(s.router r).fenced

/-! ## Counter stores at routers (R168, R174) -/

/-- The counter store at a router (R168). -/
def State.storeAtRouter (s : State) (r : RouterId) : Option (Half × Fin 16) :=
  ((allFin 16).flatMap (fun c => [(Half.north, c), (Half.south, c)])).find? (fun p =>
    s.storeRouter p.1 p.2 == r && !s.pow.storesRetired.contains p)

/-- The logical core at a store's router column, as the source that a NOTIFY or relay names. -/
def storeSite (h : Half) (col : Fin 16) : CoreId :=
  ⟨⟨31 * col.val + 15, by have := col.isLt; omega⟩, if h = .north then 111 else 272⟩

/-- One row of a NOTIFY as a message: it goes to the first working router of the row from ⟨LX0, y⟩ on and is a chain to LX1 from there
(R155, R174). -/
def State.notifyRow (s : State) (p : Half × Fin 16) (j : NotifyJob) (y : Nat) : State :=
  let w := s.vreg j.vat (.ctr j.vid 1)
  match coreOf (fld w 8 0) y, coreOf (fld w 17 9) y with
  | some a, some b =>
    let start := if s.bypassed (defaultPos a) then (s.firstWorking 1 512 (defaultPos a)).getD (defaultPos a) else defaultPos a
    s.injectAt (s.storeRouter p.1 p.2)
      { vat := j.vat, cls := 3, src := storeSite p.1 p.2, dst := start, mdir := 1, mspan := fld w 17 9 + 1 - fld w 8 0, chain := some (fld w 8 0),
        join := some ((defaultPos b).px.val, (defaultPos b).py.val) }
      (signalBytes 3 j.gen j.vid 0 0 j.value)
  | _, _ => s

/-- The store at a router puts the next row of its first NOTIFY into the local input once the row before it has left (R174, log entry
82). -/
def State.notifyNext (s : State) (r : RouterId) : State :=
  match s.storeAtRouter r with
  | none => s
  | some p =>
    if !(kget [] (s.router r).inq (4, 1)).isEmpty then s
    else
      match kget [] s.notifies p with
      | [] => s
      | j :: js =>
        match j.rows with
        | [] => { s with notifies := kset s.notifies p js }
        | y :: ys =>
          { s with notifies := kset s.notifies p (if ys.isEmpty then js else { j with rows := ys } :: js) }.notifyRow p j y

/-- FLIT_FORWARD: an output arbitrates and sends one flit by slot, by VC0 age or by VC1 round robin (R151). -/
def execFlitForward (r : RouterId) (o : Fin 5) (cyc : Nat) (s0 : State) : Result :=
  if !s0.routerWorks r then .next s0
  else
    let s := s0.notifyNext r
    match s.arbitrate r o cyc with
    | none => .next s
    | some (src, f) =>
      let s1 := s.countCollisions r o (src, f)
      let s2 := match src with
        | some (i, 1) => s1.modRouter r (fun k => { k with rr := kset k.rr o i.val })
        | _ => s1
      .next ((s2.putOut r o f).leave r src o f)

/-! ## Links (R157, R158) -/

/-- The number of regions' counters that a link touches. -/
def State.bumpLink (s : State) (r q : RouterId) (hi lo : Nat) : State :=
  let s1 := s.bumpR (.meshRegionStat (regionAt r)) hi lo 1
  if regionAt r = regionAt q then s1 else s1.bumpR (.meshRegionStat (regionAt q)) hi lo 1

/-- A route entry names a valid output. -/
def routeValid (w : Word64) : Bool := bitAt w 39 && decide (fld w 38 36 ≤ 4)
/-- A vat's route tables lead into some routers. -/
def State.routedInto (s : State) (v : VatId) (into : RouterId → Bool) : Bool :=
  s.routers.any (fun p => s.holds v (regionAt p.1) && p.2.routes.any (fun e =>
    routeValid e.2 && (((toFin? 5 (fld e.2 38 36)).bind dirOf).bind (neighbour p.1)).any into))
/-- The running vats whose route tables lead into routers that have gone are quiesced, to be given new tables (R163, R368; log entry 100). -/
def State.quiesceRouted (s : State) (owner : Option VatId) (into : RouterId → Bool) : State :=
  ((allFin 64).filter (fun v => owner ≠ some v && s.vstate v = 2 && s.routedInto v into)).foldl (fun u v => u.setVstate v 3) s

/-- The flits of a dead link's replay buffer go first by the bypass, in LSEQ order (R158). -/
def State.replayByBypass (s : State) (r : RouterId) (d : Fin 4) : State :=
  let k := s.router r
  match s.bypassOut r d with
  | none =>
    ((s.modRouter r (fun x => { x with fenced := true })).logEvent 0x0013 0 1 (regionAt r)).quiesceRouted (s.ownerOf (regionAt r))
      (fun q => q = r)
  | some b =>
    let again := (kget [] k.replay d).map (fun f =>
      { f with bypass := true, bdir := d, orig := f.lseq, via := [outOf b, outOf d, outOf (opposite b)] })
    s.modRouter r (fun x =>
      { x with replay := kset x.replay d [], wire := kset x.wire d [], replayReq := kdel x.replayReq d
               redo := x.redo ++ again, bypassing := d :: x.bypassing })

/-- A link is retired in both directions; the warden reports it (R158). -/
def State.retireMeshLink (s : State) (r q : RouterId) (d : Fin 4) : State :=
  let s1 := (s.modRouter r (fun k => { k with dead := d :: k.dead })).modRouter q (fun k => { k with dead := opposite d :: k.dead })
  let s2 := (s1.bumpLink r q 53 48).logEvent 0x0014 0 1 (regionAt r)
  (s2.replayByBypass r d).replayByBypass q (opposite d)

/-- The flit accepted at a link's far end: acknowledged, and stood in its input's buffer. A bypass flit that has turned back
is accepted only when the dead link expects its number, and a lower one is a duplicate (R157, R158). -/
def State.acceptFlit (s : State) (q r : RouterId) (inp : Fin 4) (f : Flit) : State :=
  let s1 := s.modRouter r (fun k => { k with lseqIn := kset k.lseqIn inp ((f.lseq + 1) % 64) })
  let out_ := opposite inp
  let s2 := s1.modRouter q (fun k =>
    { k with replay := kset k.replay out_ ((kget [] k.replay out_).dropWhile (fun g => g.lseq = f.lseq))
             fails := kdel k.fails out_ })
  if f.bypass && f.via.isEmpty then
    let side := opposite f.bdir
    let want := kget 0 (s2.router r).lseqIn side
    if f.orig = want then
      (s2.modRouter r (fun k => { k with lseqIn := kset k.lseqIn side ((want + 1) % 64) })).enqueue r (outOf inp)
        { f with bypass := false }
    else s2.returnCredit r (outOf inp) f.vc
  else s2.enqueue r (outOf inp) f

/-- FLIT_RECEIVE: a router checks the CRC of the first flit on a link and takes it, or discards it and asks for a replay; a
flit out of sequence is discarded. The fourth failure of one flit retires the link (R157, R158). -/
def execFlitReceive (r : RouterId) (inp : Fin 4) (crcOk : Bool) (s : State) : Result :=
  match neighbour r inp with
  | none => .next s
  | some q =>
    let d := opposite inp
    match kget [] (s.router q).wire d with
    | [] => .next s
    | f :: fs =>
      if !s.routerWorks r then .next s
      else
        let s1 := s.modRouter q (fun k => { k with wire := kset k.wire d fs })
        let expected := kget 0 (s.router r).lseqIn inp
        if f.lseq ≠ expected then .next s1
        else if crcOk then .next (s1.acceptFlit q r inp f)
        else
          let n := kget 0 (s.router q).fails d + 1
          let s2 := s1.modRouter q (fun k =>
            { k with fails := kset k.fails d n, replayReq := kset k.replayReq d expected })
          if 4 ≤ n then .next (s2.retireMeshLink q r d) else .next s2

/-- MESH_REPLAY: the sender replays from the flit asked for; RETRY counts it (R157). -/
def execMeshReplay (r : RouterId) (out_ : Fin 4) (s : State) : Result :=
  let k := s.router r
  match kfind k.replayReq out_, neighbour r out_ with
  | some n, some q =>
    let again := (kget [] k.replay out_).dropWhile (fun f => f.lseq ≠ n)
    .next ((s.modRouter r (fun x =>
      { x with replayReq := kdel x.replayReq out_, wire := kset x.wire out_ (kget [] x.wire out_ ++ again) })).bumpLink r q 47 32)
  | _, _ => .next s

/-! ## Delivery (R145, R149, R172, R178) -/

/-- The router on the receiving side of a seam port, and the input the port feeds. -/
def State.seamRouter (s : State) (n : Fin 16) (toHalf : Half) : RouterId × Fin 5 :=
  let x : Fin 512 := ⟨s.seamColumn n % 512, Nat.mod_lt _ (by decide)⟩
  match toHalf with
  | .south => (⟨x, 192⟩, 0)
  | .north => (⟨x, 191⟩, 2)

/-- The acknowledgement of a delivered tail flit: a CONTROL message from the delivering router to the sender, or to the seam port that
its message has crossed (R178). -/
def State.acknowledge (s : State) (r : RouterId) (f : Flit) : State :=
  if f.tail && f.counted then
    let m : Msg := { vat := f.vat, cls := 5, src := f.src, dst := defaultPos f.src, thread := f.thread, uid := f.uid, ack := true }
    match f.seam with
    | none => s.injectAt r m []
    | some n => s.injectAt r { m with dst := (s.seamRouter n (halfOf (regionAt r))).1, toPort := true, seam := some n } []
  else s

/-- The other half. -/
def otherHalf : Half → Half
  | .north => .south
  | .south => .north

/-- An acknowledgement that has come to its place: its sender's core, or the seam port, which carries it back on its return path (R18,
R178). -/
def State.deliverAck (s : State) (r : RouterId) (f : Flit) : State :=
  match f.seam with
  | some n =>
    let q := s.seamRouter n (otherHalf (halfOf (regionAt r)))
    s.enqueue q.1 q.2 { f with seam := none, toPort := false, dstPx := (defaultPos f.src).px, dstPy := (defaultPos f.src).py }
  | none =>
    match s.coreAt r with
    | some c => if s.vatOf c = some f.vat then s.modCore c (fun k => { k with acks := k.acks ++ [(f.thread, f.uid)] })
                else s.discardFlit f.vat c
    | none => s.discardFlit f.vat (s.placeOf r)

/-- The stage of the ring that a core belongs to (R38). -/
def State.stageOf (s : State) (v : VatId) (c : CoreId) : Option Nat :=
  match (s.vat v).ingot with
  | none => none
  | some g => g.stages.findIdx? (fun x => x.cores.contains c)

/-- The output of one stage to another, of whichever class, is held in the receiver's hand-off buffer until the beat edge (R44,
R45). -/
def State.handedOff (s : State) (f : Flit) (c : CoreId) : Bool :=
  decide (f.cls ≤ 2) &&
  match s.stageOf f.vat f.src, s.stageOf f.vat c with
  | some a, some b => a ≠ b
  | _, _ => false

/-- A delivered flit is refused (R145): outside scratchpad, activation buffers and cream; an accumulate elsewhere than in
scratchpad; the weight area for other than CONFIG. -/
def refusedAt (k : Core) (f : Flit) : Bool :=
  match k.spaceOf f.dstAddr f.bytes with
  | some .spm => f.op = 3
  | some .cream => f.op ≠ 0 || (decide (f.dstAddr < 512 * k.wb) && f.cls ≠ 6)
  | some (.abuf _) => f.op ≠ 0
  | _ => true

/-- A SIGNAL flit delivered: to the store or the mirrors, with its acknowledgement; any other is discarded and its vat stops (R172, R178).
A NOTIFY at a router that holds no core is dropped: no core's VAT field is there to differ from its tag (log entry 83). -/
def State.deliverSignal (s : State) (r : RouterId) (f : Flit) : State :=
  let kind := leAt f.data 0 1
  if kind = 3 then
    match s.coreAt r with
    | some c =>
      if s.vatOf c = some f.vat then s.modCore c (fun k => { k with notifyQ := k.notifyQ ++ [f] }) else s.discardFlit f.vat c
    | none => s
  else if (kind = 1 || kind = 2) && (s.storeAtRouter r).isSome then
    (s.modRouter r (fun k => { k with storeQ := k.storeQ ++ [f] })).acknowledge r f
  else s.discardFlit f.vat (s.placeOf r)

/-- FLIT_DELIVERY: the first flit of the delivery port is written to its core, or discarded with its vat stopped; a write to
an activation buffer that a MAC reads waits (R63, R74, R145, R149). CONFIG is accepted only as loader traffic (R144). No command makes a
TEST flit, a CONTROL flit that is no acknowledgement, or one of the reserved class; one that came would be acknowledged and its data
dropped, since the spec gives it no place to be written (DESIGN CHOICE, log entry 84). -/
def execFlitDelivery (r : RouterId) (s : State) : Result :=
  match (s.router r).deliver with
  | [] => .next s
  | f :: fs =>
    let s1 := s.modRouter r (fun k => { k with deliver := fs })
    if !s.routerWorks r then .next s
    else if f.ack then .next (s1.deliverAck r f)
    else if f.cls = 3 then .next (s1.deliverSignal r f)
    else
      match s.coreAt r with
      | none => .next (s1.discardFlit f.vat (s.placeOf r))
      | some c =>
        let k := s.core c
        if s.vatOf c ≠ some f.vat || (f.cls = 6 && !f.loader) then .next (s1.discardFlit f.vat c)
        else if f.cls = 4 || f.cls = 5 || f.cls = 7 then .next (s1.acknowledge r f)
        else if refusedAt k f then .next ((s1.discardFlit f.vat c).acknowledge r f)
        else if k.bufRead f.dstAddr f.bytes then .next s
        else if s.handedOff f c then .next ((s1.modCore c (fun x => { x with handoff := x.handoff ++ [f] })).acknowledge r f)
        else .next ((s1.landFlit c f).acknowledge r f)

/-- DELIVERY_ACKNOWLEDGEMENT: the sender learns that its message's tail has been delivered (R178). -/
def execDeliveryAcknowledgement (c : CoreId) (s : State) : Result :=
  match (s.core c).acks with
  | [] => .next s
  | (t, uid) :: as_ =>
    .next (s.modCore c (fun k =>
      let k1 := { k with acks := as_ }
      match t with
      | some i => k1.modThread i (fun h => { h with undelivered := h.undelivered - 1 })
      | none =>
        if uid = 0 then { k1 with signalsOut := k1.signalsOut - 1 }
        else { k1 with dmaActive := k1.dmaActive.map (fun d =>
          if d.uid = uid then { d with undelivered := d.undelivered - 1 } else d) }))

/-- CREDIT_RETURN: a credit reaches its output (R153). -/
def execCreditReturn (r : RouterId) (o : Fin 5) (vc : Fin 2) (s : State) : Result :=
  let n := kget 0 (s.router r).returning (o, vc)
  if n = 0 then .next s
  else .next (s.modRouter r (fun k =>
    { k with returning := kset k.returning (o, vc) (n - 1), used := kset k.used (o, vc) (kget 0 k.used (o, vc) - 1) }))

/-! ## Tables (R147, R152, R163, R164, R167) -/

/-- The routers of a vat that the state lists. -/
def State.vatRouters (s : State) (v : VatId) : List RouterId := (s.routers.map Prod.fst).filter (fun r => s.holds v (regionAt r))

/-- A flit of the vat stands in a router. -/
def Router.holdsFlit (k : Router) (v : VatId) : Bool :=
  k.inq.any (fun p => p.2.any (fun f => f.vat = v)) || k.deliver.any (fun f => f.vat = v)
    || k.wire.any (fun p => p.2.any (fun f => f.vat = v)) || k.replay.any (fun p => p.2.any (fun f => f.vat = v))
    || k.storeQ.any (fun f => f.vat = v) || k.redo.any (fun f => f.vat = v)
/-- DRAINED: no flit of the vat in any router, crossing, replay buffer, seam or rim port or shared-port staging (R163). -/
def State.drained (s : State) (v : VatId) : Bool :=
  !(s.routers.any (fun p => p.2.holdsFlit v))
    && !(s.seams.any (fun p => p.2.gather.any (fun g => g.2.any (fun f => f.vat = v))
        || p.2.arrived.any (fun g => g.2.any (fun m => m.any (fun f => f.vat = v)))))
    && !(s.rims.any (fun p => p.2.gather.any (fun f => f.vat = v)))
    && !(s.scheds.any (fun p => p.2.waiting.any (fun w => w.2.any (fun x => x.ofVat v))))
/-- Some router of a region forwards by a bypass (R158, R167). -/
def State.bypassIn (s : State) (g : Region) : Bool := s.routers.any (fun p => regionAt p.1 = g && !p.2.bypassing.isEmpty)

/-- A turn that the odd-even model forbids (R147): at an even column no packet from the west turns north or south away from
east, at an odd column none from the north or south turns west. travel and turn are directions. -/
def badTurn (col : Nat) (travel turn : Fin 4) : Bool :=
  (col % 2 = 0 && travel = 1 && (turn = 0 || turn = 2)) || (col % 2 = 1 && (travel = 0 || travel = 2) && turn = 3)
/-- A router's route table as its shadows would make it. -/
def Router.nextRoute (k : Router) (i : Fin 16) : Word64 := kget (kget 0 k.routes i) k.routeShadow i
/-- Where a router would send a destination under its shadows. -/
def State.nextOut (s : State) (r : RouterId) (x y : Nat) : Fin 5 :=
  ((matchEntry (s.router r).nextRoute x y).map Prod.snd).getD (dimOrder r { dstPx := x, dstPy := y })
/-- The rows of destinations: the grid's, and the rim's DST_PY (R144). -/
def destRows : List Nat := upTo 384 ++ [0x1FF]
/-- Under its shadows a router turns some path against the model: a neighbour sends a destination here, here it is turned, and one of the
two departs from dimension order (log entry 16). -/
def State.turnsBadly (s : State) (r : RouterId) : Bool :=
  (allFin 4).any (fun t =>
    match neighbour r (opposite t) with
    | none => false
    | some q => (upTo 512).any (fun x => destRows.any (fun y =>
        let f : Flit := { dstPx := x, dstPy := y }
        let a := s.nextOut q x y
        let b := s.nextOut r x y
        a == outOf t && (dirOf b).any (fun turn => badTurn r.px t turn) && (a != dimOrder q f || b != dimOrder r f))))
/-- The shadow tables of a router break R147 or R152: a path turns against the model, or an output has fewer than 32 invalid entries. -/
def State.shadowBad (s : State) (r : RouterId) : Bool :=
  let k := s.router r
  (!k.routeShadow.isEmpty && ((r :: (allFin 4).filterMap (neighbour r)).any s.turnsBadly))
    || (allFin 5).any (fun o =>
      ((allFin 256).filter (fun i => bitAt (kget (kget 0 k.slots (o, i)) k.slotShadow (o, i)) 0)).length > 224)

/-- The shadows of a vat's routers copied into its pending set, to take effect at the next tick, or refused when the vat is not drained or a
shadow breaks its rule; a refused commit leaves an earlier pending set (R53, R163, R164). -/
def State.commitTables (s : State) (v : VatId) : State :=
  let rs := s.vatRouters v
  if !s.drained v || rs.any s.shadowBad then s.putV v .meshCommit 2 2 1
  else
    let set : MeshSet :=
      { routes := rs.flatMap (fun r => (s.router r).routeShadow.map (fun e => (r, e.1, e.2)))
        slots := rs.flatMap (fun r => (s.router r).slotShadow.map (fun e => (r, e.1, e.2))) }
    { s with meshStaged := kset s.meshStaged v set }.putV v .meshCommit 1 1 1

/-- MESH_COMMIT_GO: the host's or the loader's commit of a vat's tables. -/
def execMeshCommitGo (v : VatId) (s : State) : Result := .next (s.commitTables v)

/-- The committed tables of a router still send some destination to an output. -/
def Router.routesOver (k : Router) (r : RouterId) (d : Fin 4) : Bool :=
  (upTo 512).any (fun x => destRows.any (fun y => (k.tableOut { dstPx := x, dstPy := y }).getD (dimOrder r { dstPx := x, dstPy := y }) == outOf d))

/-- A pending set of tables whose tick has come takes effect, AT_TICK records the tick, and bypasses that the new routes avoid end (R53,
R158, R163). -/
def State.settleMesh (s : State) (v : VatId) : State :=
  match kfind s.meshStaged v with
  | some set =>
    (match set.due with
     | some n =>
       let s1 := set.routes.foldl (fun u e => u.modRouter e.1 (fun k => { k with routes := kset k.routes e.2.1 e.2.2 })) s
       let s2 := set.slots.foldl (fun u e => u.modRouter e.1 (fun k => { k with slots := kset k.slots e.2.1 e.2.2 })) s1
       let s3 := (set.routes.map (fun e => e.1)).eraseDups.foldl (fun u r => u.modRouter r (fun k =>
         { k with bypassing := k.bypassing.filter (k.routesOver r) })) s2
       ({ s3 with meshStaged := kdel s3.meshStaged v }.putV v .meshCommit 1 1 0).putV v .meshCommit 63 16 n
     | none => s)
  | none => s

/-- MESH_TABLES_APPLY: at the tick after the commit the vat's routers take their new tables (R163). -/
def execMeshTablesApply (v : VatId) (s : State) : Result := .next (s.settleMesh v)

end Sys2Proof.Machine
end

