-- ==== Sys2Proof/Machine/Beat.lean ====
section
/-! DEFINITION. Ticks, staged commits and the beat gate (R31 to R55, R260, R272, R302, R308, R376). -/

namespace Sys2Proof.Machine

/-! ## Staged commits (R31, R53, R54, R260) -/

/-- The registers of a commit group whose shadows have been written. -/
def State.groupRegs (s : State) (g : Option VatId) : List Reg :=
  (s.shadow.map Prod.fst).filter (fun r =>
    match r, g with
    | .tickPeriod, none => true
    | .tickLead _, none => true
    | .vat w _, some v => w = v
    | _, _ => false)
/-- The commit register of a group. -/
def commitReg : Option VatId → Reg
  | none => .tickCommit
  | some v => .vat v .vatCommit
/-- A register's staged bits taken from a word. -/
def State.takeStaged (s : State) (r : Reg) (w : Word64) : State :=
  let m := w64 (tkMask r)
  s.setReg r ((s.getReg r &&& ~~~m) ||| (w &&& m))

/-- A group's shadows copied into its pending set, replacing an earlier one. -/
def State.commitGroup (s : State) (g : Option VatId) : State :=
  { s with staged := kset s.staged g { vals := (s.groupRegs g).map (fun r => (r, s.shadowOf r)) } }.putR (commitReg g) 1 1 1

/-- The command that a vat's commit carries is consumed: from now CMD reads 0 in shadow and committed value, and the command is
carried out or, with a CMD of 6 or 7, refused (R260). -/
def State.consumeCmd (s : State) (v : VatId) : State :=
  let c := s.vfld v .vatCtrl 2 0
  if c = 0 then s
  else
    let s1 := { s.putV v .vatCtrl 2 0 0 with shadow := kdel s.shadow (.vat v .vatCtrl) }
    if 6 ≤ c then s1.refuseCmd v else s1.modVat v (fun x => { x with cmd := BitVec.ofNat 3 c })

/-- A pending set whose tick has come takes effect, and AT_TICK records the tick (R53). -/
def State.settle (s : State) (g : Option VatId) : State :=
  match kfind s.staged g with
  | some p =>
    (match p.due with
     | some n =>
       let s1 := p.vals.foldl (fun u x => u.takeStaged x.1 x.2) { s with staged := kdel s.staged g }
       let s2 := (s1.putR (commitReg g) 1 1 0).putR (commitReg g) 63 16 n
       (match g with
        | some v => s2.consumeCmd v
        | none => s2)
     | none => s)
  | none => s
/-- Every pending set whose tick has come takes effect, of registers and of tables. -/
def State.settleAll (s : State) : State :=
  (s.meshStaged.map Prod.fst).foldl (fun u v => u.settleMesh v) ((s.staged.map Prod.fst).foldl (fun u g => u.settle g) s)

/-- TICK_COMMIT_GO: commits the tick group; a period below 500 ns refuses it as a whole and leaves an earlier pending set (R31). -/
def execTickCommitGo (s0 : State) : Result :=
  let s := s0.settle none
  if fld (s.shadowOf .tickPeriod) 15 0 < 500 then .next (s.putR .tickCommit 2 2 1) else .next (s.commitGroup none)

/-- VAT_COMMIT_GO: copies the vat group's shadows into its pending set (R53). -/
def execVatCommitGo (v : VatId) (s : State) : Result := .next ((s.settle (some v)).commitGroup (some v))

/-- STAGED_COMMIT_APPLY: a pending set takes effect at the first tick after its commit (R53, R54). -/
def execStagedCommitApply (g : Option VatId) (s : State) : Result := .next (s.settle g)

/-! ## Ticks (R31 to R36) -/

/-- The half whose tick the rim blocks take (R35). -/
def State.rimHalf (s : State) : Half := if s.runNorth then .north else if s.runSouth then .south else .north
/-- What the rim blocks do at a tick: TICK_COUNT moves, sets pending from before the tick are due, and so are commits of tables,
stops and twin commands (R53, R163, R199, R314). -/
def State.rimTick (s : State) : State :=
  let s1 := s.setReg .tickCount (w64 s.now)
  { s1 with staged := s1.staged.map (fun p => (p.1, { p.2 with due := some (p.2.due.getD s.now) }))
            meshStaged := s1.meshStaged.map (fun p => (p.1, { p.2 with due := some (p.2.due.getD s.now) }))
            vats := s1.vats.map (fun p => (p.1, { p.2 with stopDue := p.2.stopDue || p.2.stopWait }))
            twin := { s1.twin with cmdDue := s1.twin.cmdDue || decide (s1.twin.cmd ≠ 0) } }

/-- The first core of a region, as the place a region's fault names. -/
def cornerOf (r : Region) : CoreId :=
  ⟨⟨31 * (r.val % 16), by have := r.isLt; omega⟩, ⟨32 * (r.val / 16), by have := r.isLt; omega⟩⟩

/-- A region fenced. -/
def State.fenceRegion (s : State) (r : Region) : State :=
  if s.pow.fenced.contains r then s else { s with pow := { s.pow with fenced := s.pow.fenced ++ [r] } }
/-- The vat of a region stops by hardware stop (R361). -/
def State.stopHolder (s : State) (r : Region) (st : Status) : State :=
  match s.ownerOf r with
  | some v => s.hardStop v st (cornerOf r)
  | none => s

/-- TICK_LOSS: a region without a tick for 1.25 periods is fenced, and the vat that holds it stops with VATFAULT (R36). -/
def execTickLoss (r : Region) (s : State) : Result :=
  if !s.regionOn r || s.pow.fenced.contains r then .next s
  else .next (((s.fenceRegion r).stopHolder r .vatfault).logEvent 0x0010 (statusCode .vatfault) 1 r)

/-! ## The ring (R38, R44) -/

/-- The stages of a vat's ring, none loaded: none. -/
def State.ring (s : State) (v : VatId) : List StageInfo :=
  match (s.vat v).ingot with
  | some g => g.stages
  | none => []
/-- The stage at which a pail stands: pail p enters the first stage at every edge whose number is p modulo the ring's length. -/
def stageAt (len edges pail : Nat) : Nat := if len = 0 then 0 else (edges % len + len - pail % len) % len
/-- The pail that stands at a stage. -/
def pailAt (len edges stage : Nat) : Nat := if len = 0 then 0 else (edges % len + len - stage % len) % len
/-- The place of a ring stage among the layer stages, none for a crossing or head stage. -/
def layerIndex (ring : List StageInfo) (k : Nat) : Option Nat :=
  match ring[k]? with
  | some x => if x.kind = .layer then some ((ring.take k).filter (fun y => y.kind = .layer)).length else none
  | none => none
/-- A chained module's vat other than the first: its ladle admits nothing and rebuilds no header (R307). -/
def State.chained (s : State) (v : VatId) : Bool := 2 ≤ s.vfld v .linkChain 1 0

/-- A core is done (R44, R187). -/
def Core.done (k : Core) : Bool := k.threads.all (fun p => p.2.status = .idle || p.2.status = .eob)
/-- A core's messages have been accepted. -/
def Core.delivered (k : Core) : Bool :=
  k.threads.all (fun p => p.2.undelivered = 0) && k.dmaActive.all (fun d => d.undelivered = 0) && k.signalsOut = 0

/-- DONE_REPORT: the report of a stage whose cores are done and whose messages are accepted reaches the beat gate (R44). -/
def execDoneReport (v : VatId) (stage : Nat) (s : State) : Result :=
  match (s.ring v)[stage]? with
  | none => .next s
  | some x =>
    if x.cores.all (fun c => (s.core c).done && (s.core c).delivered) && !(s.vat v).done.contains stage then
      .next (s.modVat v (fun w => { w with done := stage :: w.done }))
    else .next s

/-! ## The beat gate (R44 to R47, R272, R302, R308) -/

/-- The ladle has done its part of the beat: the pail in the last stage has been filled and its header acknowledged (R272). -/
def State.ladleDone (s : State) (v : VatId) : Bool :=
  let n := (s.ring v).length
  let p := s.pail v (pailAt n (s.vat v).edges (n - 1))
  n = 0 || s.chained v || (p.commitsDue.isEmpty && p.filledAt = some (s.vat v).edges && !p.headerWait)
/-- Every stage is done, and so are the ladle and, in a downstream module of a chain, the inbound pail. -/
def State.allDone (s : State) (v : VatId) : Bool :=
  (upTo (s.ring v).length).all (fun k => (s.vat v).done.contains k) && s.ladleDone v
    && (!s.chained v || (s.vat v).inbound)
/-- The effective beat multiple: min(16, k + ADD) (R37, R376). -/
def State.beatK (s : State) (v : VatId) : Nat := min 16 (s.vfld v .vatBeat 3 0 + 1 + s.rfld (.thermVat v) 4 1)

/-- A core at the beat edge: hand-offs are released and land, those into an activation buffer in use once it is free, and threads held at
EOB continue (R44, R74, R187). -/
def State.edgeCore (s : State) (c : CoreId) : State :=
  let k := s.core c
  (s.setCore c { k with handoff := [], released := k.released ++ k.handoff, threads := k.threads.map (fun p =>
    if p.2.status = .eob then (p.1, { p.2 with status := .ready }) else p) }).landReleased c

/-- A pail enters a stage at an edge: streams on their first pass note the tick at a KV-bearing layer stage (R248), and a pail at the last
stage awaits the commits of its pass. -/
def State.enterStage (s : State) (v : VatId) (p : Nat) : State :=
  let ring := s.ring v
  let k := stageAt ring.length (s.vat v).edges p
  let pl := s.pail v p
  let riders := pl.slots.filterMap id
  let s1 := match (if (ring[k]?).any (fun x => x.kvStage.isSome) then layerIndex ring k else none) with
    | none => s
    | some j => riders.foldl (fun u st =>
        match u.stream v st with
        | some x => if x.firstPass then u.setStream v st { x with stageEntries := x.stageEntries ++ [(j, s.now)] } else u
        | none => u) s
  if k + 1 = ring.length ∧ !riders.isEmpty then s1.setPail v p { pl with commitsDue := riders } else s1

/-- The beat edge: all hand-off buffers are released together and every pail moves on (R38, R44, R45). -/
def State.beatEdge (s : State) (v : VatId) : State :=
  let s1 := (s.listedCores v).foldl (fun u c => u.edgeCore c) s
  let s2 := s1.modVat v (fun w => { w with elapsed := 0, slipRun := 0, done := [], inbound := false, edges := w.edges + 1 })
  (upTo (s.ring v).length).foldl (fun u p => u.enterStage v p) s2

/-- A slipped tick: counted, with the longest run; past the limit the gate makes no further edge (R44, R46). -/
def State.slip (s : State) (v : VatId) : State :=
  let run := (s.vat v).slipRun + 1
  let lim := s.vfld v .vatBeat 11 4
  let s1 := (s.bumpR (.vat v .vatSlip) 31 0 1).putV v .vatSlip 47 32 (max (s.vfld v .vatSlip 47 32) (min run 65535))
  let gone := lim ≠ 0 && decide (lim < run)
  s1.modVat v (fun w => { w with slipRun := run, gateOff := w.gateOff || gone, slipDue := if gone then some s.now else w.slipDue })

/-- BEAT_GATE: the gate's evaluation at a tick of a vat with beats: an edge, a slip, or neither (R44 to R47). -/
def execBeatGate (v : VatId) (s0 : State) : Result :=
  let s := s0.settle (some v)
  let w := s.vat v
  if !(s.vstate v = 2 || s.vstate v = 3) || w.gateOff || w.stopDue || w.gateTick = some s.now then .next s
  else
    let e := w.elapsed + 1
    let s1 := s.modVat v (fun x => { x with elapsed := e, gateTick := some s.now })
    if e < s.beatK v then .next s1
    else if s1.allDone v then .next (s1.beatEdge v)
    else .next (s1.slip v)

/-- SLIP_LIMIT_EXCEEDED: the slip that passed the limit stops the vat with SLIP (R46). -/
def execSlipLimitExceeded (v : VatId) (s : State) : Result :=
  match (s.vat v).slipDue with
  | some n => .next ((s.modVat v (fun w => { w with slipDue := none })).report { vat := v, status := .slip, tick := n })
  | none => .next s

end Sys2Proof.Machine
end

