-- ==== Sys2Proof/Machine/Branch.lean ====
section
/-! DEFINITION. The branches (R205). -/

namespace Sys2Proof.Machine

/-- The index a taken branch goes to. -/
def branchTarget (pc : Nat) (f : FmtB) : Int := (pc : Int) + f.target.toInt

/-- BR: when the condition holds for (s[A], s[B]), the next index is PC + TARGET; a taken branch out of the store faults
with ADDRESS, a branch not taken goes on in sequence (R185, R205). -/
def execBr (t : Site) (f : FmtB) (s : State) : Result :=
  let h := s.thread t
  let taken := cond64 f.cond.toNat (h.sreg f.a) (h.sreg f.b)
  let tgt := branchTarget h.pc f
  issue s t false (!taken)
    [(f.cond = 7 || f.thread ≠ 0 || f.rsv ≠ 0 || (f.cond = 0 && (f.a ≠ 0 || f.b ≠ 0)), .illegal),
     (taken && (decide (tgt < 0) || decide (2047 < tgt)), .address)]
    (fun u => if taken then u.setPc t tgt.toNat else u)

/-- JR: jumps to the index s[A]; 2,048 or more faults with ADDRESS (R205). -/
def execJr (t : Site) (f : FmtB) (s : State) : Result :=
  let tgt := ((s.thread t).sreg f.a).toNat
  issue s t false false
    [(f.b ≠ 0 || f.cond ≠ 0 || f.thread ≠ 0 || f.rsv ≠ 0 || f.target ≠ 0, .illegal), (decide (2048 ≤ tgt), .address)]
    (fun u => u.setPc t tgt)

end Sys2Proof.Machine
end

