-- ==== Sys2Proof/Machine/Rim.lean ====
section
/-! DEFINITION. The rim ring (R27, R29, R30) and the way of messages between the rim ports and the rim blocks (R160, R161). -/

namespace Sys2Proof.Machine

/-! ## The ring's stops (R27, R29; log entry 89) -/

/-- The stop of the ring that serves a rim port: the ports taken clockwise from the west edge's topmost eight upward, four to a stop. -/
def stopOfPort (p : Fin 128) : Fin 32 :=
  let n := p.val
  let i := if n < 16 then 8 + n else if n < 32 then 87 - (n - 16) else if n < 40 then 7 - (n - 32)
           else if n < 80 then 135 - (n - 32) else 24 + (n - 80)
  ⟨i / 4 % 32, Nat.mod_lt _ (by decide)⟩
/-- The stop of the i-th of k blocks of one kind in a segment: 0 north, 1 east, 2 south, 3 west. -/
def stopOfBlock (segment i k : Nat) : Fin 32 := ⟨(8 * segment + i * 8 / k) % 32, Nat.mod_lt _ (by decide)⟩
/-- The stops of a stack site, a device link and a host port. -/
def stopOfStack (s : Fin 24) : Fin 32 := stopOfBlock (s.val / 6) (s.val % 6) 6
def stopOfLink (l : LinkId) : Fin 32 := stopOfBlock (l.val / 9) (l.val % 9) 9
def stopOfPcie (h : HostPort) : Fin 32 := match h with | .east => stopOfBlock 1 0 1 | .west => stopOfBlock 3 0 1

/-- The stops from one to another going clockwise. -/
def clockwise (a b : Fin 32) : Nat := (b.val + 32 - a.val) % 32
/-- A message takes the direction with fewer stops, and clockwise when the two are equal (R29). -/
def goesClockwise (a b : Fin 32) : Bool := clockwise a b ≤ 16
/-- A ring stop's number among the shared ports; its two directions are those of the ring: true is clockwise. -/
def ringShare (k : Fin 32) : Fin 176 := ⟨144 + k.val, by have := k.isLt; omega⟩
/-- The ring on the way from one stop to another: the stop where the message enters it, none where both are one stop. -/
def ringHop (a b : Fin 32) : List (SharedPort × Bool) := if a = b then [] else [(.mesh (ringShare a), goesClockwise a b)]

/-! ## Messages between rim ports and rim blocks -/

/-- The rim port that a vat's traffic of a half uses: the first working one of the half in which the vat holds a share, else the first
in which it holds one, else port 0, which never serves it (log entry 90). -/
def State.rimPortFor (s : State) (v : VatId) (h : Half) : Fin 128 :=
  let ps := (allFin 128).filter (fun p => !s.pow.rimPortsRetired.contains p && s.weight (.mesh (rimShare p)) v ≠ 0)
  match ps.find? (fun p => (s.rimRouter p).any (fun r => halfOf (regionAt r) == h)) with
  | some p => p
  | none => ps.head?.getD 0
/-- A vat has a share of a rim port that works. -/
def State.hasRim (s : State) (v : VatId) : Bool :=
  (allFin 128).any (fun p => !s.pow.rimPortsRetired.contains p && s.weight (.mesh (rimShare p)) v ≠ 0)
/-- The way out of the grid to a rim block: the rim port, the ring, and the block's own port. -/
def State.wayOut (s : State) (v : VatId) (h : Half) (stop : Fin 32) (block : List (SharedPort × Bool)) : List (SharedPort × Bool) :=
  let p := s.rimPortFor v h
  (.mesh (rimShare p), true) :: ringHop (stopOfPort p) stop ++ block
/-- The way from a rim block into the grid. -/
def State.wayIn (s : State) (v : VatId) (h : Half) (stop : Fin 32) (block : List (SharedPort × Bool)) : List (SharedPort × Bool) :=
  let p := s.rimPortFor v h
  block ++ ringHop stop (stopOfPort p) ++ [(.mesh (rimShare p), false)]

/-! ## Host ports (R315, R319, R329) -/

/-- The port of a queue pair. -/
def State.portOf (s : State) (n : QueueId) : HostPort := portOfBit (s.rfld (.queSq n 1) 16 16)
/-- A completion written is signalled: at once, or at the end of an open window (R329). -/
def State.signalCq (s : State) (n : QueueId) : State :=
  if s.rfld (.queCq n 1) 27 27 = 0 then s
  else
    let vec := s.rfld (.queCq n 1) 26 16
    let us := s.rfld (.queCq n 1) 63 56
    if us = 0 then s.msix (s.portOf n) vec
    else
      match (s.qp n).window with
      | some _ => s.modQp n (fun q => { q with waiting := true })
      | none => (s.modQp n (fun q => { q with window := some (s.now, s.winTicks (1000 * us)) })).msix (s.portOf n) vec

/-- A trip has arrived: the transfer that waits for it goes on; a packet waits at its link, or for the command that takes it; a
completion entry reaches the host and is signalled after it (R329). -/
def State.tripDone (s : State) (t : Trip) : State :=
  match t.owner with
  | .desc c uid => s.modCore c (fun k => { k with dmaActive := k.dmaActive.map (fun d =>
      if d.uid = uid then { d with trips := d.trips - 1 } else d) })
  | .packetOut l p =>
    (match if s.linkRetiredBit l then s.routeOf p else some l with
     | some x => s.post x p
     | none => s)
  | .packetIn l p => s.modLink l (fun k => { k with rx := k.rx ++ [p] })
  | .pass v => s.modVat v (fun w => { w with passTrips := w.passTrips - 1 })
  | .entry n o => (s.send o).signalCq n
  | .prompt v st =>
    (match s.stream v st with
     | some x => s.setStream v st { x with promptTrips := x.promptTrips - 1 }
     | none => s)
/-- A message goes on: into the staging of the next port on its way, or to its end. -/
def State.tripOn (s : State) (t : Trip) : State :=
  match t.hops with
  | h :: hs => s.offer h.1 h.2 (seatOf t.vat) (.trip { t with hops := hs })
  | [] => s.tripDone t

/-- A packet leaves a core of a half, or the stack of a stack address, for a link (R160, R297). -/
def State.packetFromCore (s : State) (h : Half) (l : LinkId) (p : Packet) : State :=
  s.tripOn { vat := p.srcVat, bytes := p.length.toNat, hops := s.wayOut p.srcVat h (stopOfLink l) [], owner := .packetOut l p }
def State.packetFromStack (s : State) (a : Nat) (l : LinkId) (p : Packet) : State :=
  match (stackPlace a).bind (fun x => toFin? 24 x.1) with
  | some k =>
    s.tripOn { vat := p.srcVat, bytes := p.length.toNat, hops := (.stack k, false) :: ringHop (stopOfStack k) (stopOfLink l),
               owner := .packetOut l p }
  | none => s
/-- A packet from a link goes to a core of a half, or to the stack of a stack address, whose port it enters in a direction. -/
def State.packetToCore (s : State) (h : Half) (l : LinkId) (p : Packet) : State :=
  s.tripOn { vat := p.dstVat, bytes := p.length.toNat, hops := s.wayIn p.dstVat h (stopOfLink l) [], owner := .packetIn l p }
def State.packetToStack (s : State) (a : Nat) (l : LinkId) (p : Packet) : State :=
  match (stackPlace a).bind (fun x => toFin? 24 x.1) with
  | some k =>
    s.tripOn { vat := p.dstVat, bytes := p.length.toNat, hops := ringHop (stopOfLink l) (stopOfStack k) ++ [(.stack k, true)],
               owner := .packetIn l p }
  | none => s.tripDone { vat := p.dstVat, bytes := 0, owner := .packetIn l p }

/-- The pieces of a stack range, one granule each, as stack and bytes: a message holds at most 4,096 B, and neighbouring granules lie in
different stacks (R160, R249). -/
def stackPieces (a n : Nat) : List (Nat × Nat) :=
  (granules a n).filterMap (fun g => (stackPlace (max a g)).map (fun p => (p.1, min (a + n) (g + 4096) - max a g)))
/-- The messages of a transfer between a core and the stacks set out: all requesters but the presses of a site reach a stack over the
ring (R30, R252). write: towards the stacks. -/
def State.setOut (s : State) (c : CoreId) (v : VatId) (uid : Nat) (write : Bool) (a n : Nat) : State :=
  (stackPieces a n).foldl (fun u p =>
    match toFin? 24 p.1 with
    | some k =>
      let h := halfOf (regionOf c)
      let hops := if write then u.wayOut v h (stopOfStack k) [(.stack k, true)] else u.wayIn v h (stopOfStack k) [(.stack k, false)]
      u.tripOn { vat := v, bytes := p.2, hops := hops, owner := .desc c uid }
    | none => u) s

end Sys2Proof.Machine
end

