-- ==== Sys2Proof/Machine/Pages.lean ====
section
/-! DEFINITION. What the ladle keeps of streams: pages and reservations (R114 to R122, R140, R251), customers (R269), completions
(R326 to R329) and the end of a stream (R139, R268). -/

namespace Sys2Proof.Machine

/-! ## KV geometry (R114 to R118, R142) -/

def State.kvGroups (s : State) (v : VatId) : Nat := s.vfld v .kvConf 7 0
def State.kvPages (s : State) (v : VatId) : Nat := s.vfld v .kvConf 63 40
def State.kvHeads (s : State) (v : VatId) : Nat := s.vfld v .kvConf 22 16
/-- The bytes of a record (R114). -/
def State.recordBytes (s : State) (v : VatId) : Nat := 66 * s.vfld v .kvConf 26 23
/-- The pages of a group: those below PAGES whose number is the group modulo N (R117, R118). -/
def groupSize (n pages g : Nat) : Nat := if g < n then (pages + n - 1 - g) / n else 0
/-- How many of a run of pages from group g0 on lie in group g. -/
def runIn (n g0 pages g : Nat) : Nat :=
  if n = 0 then 0
  else
    let o := (g + n - g0 % n) % n
    if o < pages then (pages - 1 - o) / n + 1 else 0
/-- The pages that a reservation for a position limit takes (R121). -/
def pagesFor (limit : Nat) : Nat := ceilDiv limit 64

/-- A page that no stream of the vat holds in cream, nor has taken for a restore under way. -/
def State.pageFree (s : State) (v : VatId) (p : Nat) : Bool :=
  !((s.vat v).streams.any (fun e => e.2.pages.any (fun x => !x.skimmed && x.number = p) || e.2.incoming.any (fun x => x.number = p)))
/-- A group's pages under reservation. -/
def State.reservedIn (s : State) (v : VatId) (g : Nat) : Nat :=
  ((s.vat v).streams.map (fun e => runIn (s.kvGroups v) e.2.g0 e.2.reserved g)).foldl (· + ·) 0
/-- A reservation from a first group finds enough free, unreserved pages in each group concerned. -/
def State.roomFrom (s : State) (v : VatId) (g0 need : Nat) : Bool :=
  let n := s.kvGroups v
  (upTo n).all (fun g => runIn n g0 need g = 0 || s.reservedIn v g + runIn n g0 need g ≤ groupSize n (s.kvPages v) g)
/-- With the pail's reserved pages, no group then holds more than KV_GROUP_MAX. -/
def State.groupsFit (s : State) (v : VatId) (riders : List Stream) (g0 need : Nat) : Bool :=
  let n := s.kvGroups v
  (upTo n).all (fun g => (riders.map (fun x => runIn n x.g0 x.reserved g)).foldl (· + ·) 0 + runIn n g0 need g
    ≤ s.vfld v .kvConf 11 8)
/-- The lowest first group that satisfies R121, in a pail with these riders; none is asked about the pail when reserving for
prefill or restoring (R141, R242). -/
def State.findG0 (s : State) (v : VatId) (riders : Option (List Stream)) (need : Nat) : Option Nat :=
  (upTo (s.kvGroups v)).find? (fun g => s.roomFrom v g need && (match riders with
    | some rs => s.groupsFit v rs g need
    | none => true))

/-- A list entry's 32 bits (R120). -/
def entryWord (e : PageEntry) : Nat := e.number % 2 ^ 24 + (if e.skimmed then 2 ^ 31 else 0)
/-- A stream's list written twice to the vat's list area (R120, R251). -/
def State.writeList (s : State) (v : VatId) (st : StreamId) (x : Stream) : State :=
  let bs := x.pages.flatMap (fun e => leBytes 4 (entryWord e))
  let base := s.vfld v .kvListbase 47 0 + 4096 * st.val
  (s.stackWrite base bs).stackWrite (base + 4194304) bs
/-- KV_SEQ_n of a stream (R142). -/
def seqWord (x : Stream) : Word64 :=
  w64 (x.lc + x.pages.length * 2 ^ 17 + x.g0 % 256 * 2 ^ 28 + (if x.pages.any PageEntry.skimmed then 2 ^ 36 else 0)
    + x.reserved * 2 ^ 37)
/-- A stream's record kept, with its register and its lists. -/
def State.keep (s : State) (v : VatId) (st : StreamId) (x : Stream) : State :=
  let s1 := (s.setStream v st x).setReg (.vat v (.kvSeq st)) (seqWord x)
  match s.stream v st with
  | some y => if y.pages = x.pages then s1 else s1.writeList v st x
  | none => s1

/-- The page for entry i of a list with a first group: in the required group, the free page with the lowest slot that is not among those
just taken (R121, R122). -/
def State.pageAt (s : State) (v : VatId) (g0 i : Nat) (taken : List PageEntry) : Option Nat :=
  let n := s.kvGroups v
  let g := (g0 + i) % n
  ((upTo (groupSize n (s.kvPages v) g)).find? (fun k =>
    s.pageFree v (g + n * k) && !taken.any (fun e => e.number = g + n * k))).map (fun k => g + n * k)
/-- The next page of a stream's list. -/
def State.nextPage (s : State) (v : VatId) (x : Stream) : Option Nat := s.pageAt v x.g0 x.pages.length []
/-- Pages for the first entries of a list with a first group, one after another. -/
def State.freshPages (s : State) (v : VatId) (g0 : Nat) (taken : List PageEntry) : Nat → List PageEntry
  | 0 => taken
  | n + 1 =>
    match s.pageAt v g0 taken.length taken with
    | some p => s.freshPages v g0 (taken ++ [{ number := p }]) n
    | none => taken
/-- So many pages added to a stream's list. -/
def State.addPages (s : State) (v : VatId) (st : StreamId) : Nat → State
  | 0 => s
  | n + 1 =>
    match s.stream v st with
    | some x =>
      (match s.nextPage v x with
       | some p => (s.keep v st { x with pages := x.pages ++ [{ number := p }] }).addPages v st n
       | none => s)
    | none => s
/-- The entries that a list needs: to position Lc + 8, or to the stream's last position (R122). -/
def entriesFor (x : Stream) : Nat := min (x.lc + 8) (x.limit - 1) / 64 + 1
/-- The list made long enough. -/
def State.extend (s : State) (v : VatId) (st : StreamId) : State :=
  match s.stream v st with
  | some x => s.addPages v st (entriesFor x - x.pages.length)
  | none => s

/-! ## Counters of queues and vats (R266, R281) -/

/-- A stream of a queue that no pail has taken yet. -/
def waitsIn (n : QueueId) (x : Stream) : Bool := x.queue = n && !x.ended && x.entryTick = 0 && x.target.isNone
/-- An unfinished stream of a queue. -/
def activeIn (n : QueueId) (x : Stream) : Bool := x.queue = n && x.target.isNone
/-- The streams of every vat. -/
def State.allStreams (s : State) : List Stream := s.vats.flatMap (fun p => p.2.streams.map Prod.snd)
/-- QUE_n.FETCHED and ACTIVE as they stand. -/
def State.fetchedOf (s : State) (n : QueueId) : Nat := (s.qp n).fetched.length + (s.allStreams.filter (waitsIn n)).length
def State.activeOf (s : State) (n : QueueId) : Nat := (s.qp n).fetched.length + (s.allStreams.filter (activeIn n)).length
def State.refreshQue (s : State) (n : QueueId) : State :=
  (s.putR (.que n) 31 27 (min 31 (s.fetchedOf n))).putR (.que n) 42 32 (min 2047 (s.activeOf n))
/-- The stream numbers given to requests of a vat that the ladle has fetched and not yet checked (R267). -/
def State.fetchedNums (s : State) (v : VatId) : List StreamId :=
  (s.queues.filter (fun p => s.rfld (.que p.1) 6 1 = v.val)).flatMap (fun p => p.2.fetched.filterMap Fetched.num)
/-- VAT_STATUS.STREAMS as it stands: stream numbers in use, those of fetched requests among them (R267, R281). -/
def State.refreshStreams (s : State) (v : VatId) : State :=
  s.putV v .vatStatus 14 4 ((s.vat v).streams.length + (s.fetchedNums v).length)
/-- The messages of a trip owner taken back from every port's staging. -/
def State.dropTrips (s : State) (o : TripOwner) : State :=
  { s with scheds := s.scheds.map (fun q => (q.1, { q.2 with waiting := q.2.waiting.map (fun w => (w.1, w.2.filter (fun x =>
      match x with
      | .trip t => t.owner ≠ o
      | _ => true))) })) }
/-- A stream's record removed, with what the registers tell of it (R139). -/
def State.dropStream (s : State) (v : VatId) (st : StreamId) (n : QueueId) : State :=
  ((((s.modVat v (fun w => { w with streams := kdel w.streams st })).setReg (.vat v (.kvSeq st)) 0).dropTrips (.prompt v st)).refreshStreams
    v).refreshQue n

/-! ## Customers (R269) -/

def State.cust (s : State) (c : Fin 4096) : Cust := kget {} s.custs c
/-- BALANCE, signed. -/
def State.balance (s : State) (c : Fin 4096) : Int := (BitVec.ofNat 32 (s.rfld (.ladleCust c 1) 31 0)).toInt
/-- The budget in force means no limit. -/
def State.unlimited (s : State) (c : Fin 4096) : Bool := (s.cust c).eff = 0xFFFFFFFF
/-- BALANCE set. A value outside 32 bits is a free value: the spec states none (log entry 6). EXHAUSTED counts the windows in which
BALANCE reached 0 or less (R281). -/
def State.setBalance (s : State) (c : Fin 4096) (b : Int) : State :=
  let fits := decide (-(2 ^ 31 : Int) ≤ b) && decide (b < 2 ^ 31)
  let w : Word32 := if fits then BitVec.ofInt 32 b else (Config.freeWord s.freeCtr).setWidth 32
  let s1 := { (s.putR (.ladleCust c 1) 31 0 w.toNat) with freeCtr := if fits then s.freeCtr else s.freeCtr + 1 }
  if w.toInt ≤ 0 && !(s.cust c).hit then
    { (s1.bumpR (.ladleCust c 1) 63 32 1) with custs := kset s1.custs c { s.cust c with hit := true } }
  else s1
/-- The first tick of the window of a customer's vat (R269). -/
def State.custWindow (s : State) (c : Fin 4096) : Nat :=
  match toFin? 64 (s.rfld (.ladleCust c 0) 37 32) with
  | some v => (s.vat v).winStart
  | none => s.now
/-- Tokens charged in the window that holds a stamp's tick: the one under way, or the one before where the stamp is older (an older one
still is booked there too, log entry 97), whose debt the refill then carried over (R269). Nothing is charged where there was no limit. -/
def State.charge (s : State) (c : Fin 4096) (n tick : Nat) : State :=
  let k := s.cust c
  if tick ≠ s.custWindow c && decide (ticksFrom tick (s.custWindow c) < 2 ^ 47) then
    if k.lastEff = 0xFFFFFFFF then s
    else
      let before : Int := k.last.toInt
      let after : Int := before - n
      let hits := after ≤ 0 && !k.lastHit
      let s1 := if hits then s.bumpR (.ladleCust c 1) 63 32 1 else s
      let s2 := { s1 with custs := kset s1.custs c { k with last := BitVec.ofInt 32 after, lastHit := k.lastHit || hits } }
      if s.unlimited c then s2 else s2.setBalance c (s.balance c + min after 0 - min before 0)
  else if s.unlimited c then s else s.setBalance c (s.balance c - n)
/-- A customer is eligible. -/
def State.eligible (s : State) (c : Fin 4096) : Bool := s.unlimited c || decide (0 < s.balance c)
/-- The customers that the vat's queue pairs name: an owner must be named by a pair enabled, or still active (R263, R266). -/
def State.customersOf (s : State) (v : VatId) : List (Fin 4096) :=
  ((s.regs.filterMap (fun p =>
    match p.1 with
    | .que _ =>
      if fld p.2 6 1 = v.val && (bitAt p.2 0 || fld p.2 42 32 ≠ 0) then toFin? 4096 (fld p.2 26 15) else none
    | _ => none)).eraseDups).filter (fun c => s.rfld (.ladleCust c 0) 37 32 = v.val)

/-! ## Completions (R326 to R329) -/

/-- The completion queue is full, or its port is down (R327, R328). -/
def State.cqBlocked (s : State) (n : QueueId) : Bool :=
  (s.rfld (.queCq n 1) 47 32 + 1) % (s.rfld (.queCq n 1) 15 0 + 1) = (s.qp n).cqHead || s.host.down (s.portOf n)

/-- The 64 bytes of a completion entry (R326). -/
def completionBytes (c : Completion) (head phase : Nat) : List Byte :=
  let toks := (c.tokens ++ List.replicate 4 0).take 4
  leBytes 2 c.cmdId.toNat ++ leBytes 2 head ++ leBytes 1 (statusCode c.status)
    ++ leBytes 1 (phase + c.first.toNat * 2 + c.fin.toNat * 4 + c.control.toNat * 8)
    ++ leBytes 1 c.tokens.length ++ leBytes 1 c.vat ++ leBytes 2 c.stream.toNat ++ leBytes 2 0 ++ leBytes 4 c.lc
    ++ toks.flatMap (fun t => leBytes 4 t.toNat) ++ leBytes 6 c.commitTick ++ leBytes 2 0 ++ leBytes 6 c.fetchTick ++ leBytes 2 0
    ++ leBytes 6 c.entryTick ++ leBytes 10 0

/-- The read of a stream's prompt, in messages of at most 4,096 B through its queue's host port under its vat's share (R240, R319, R323). -/
def State.askPrompt (s : State) (v : VatId) (st : StreamId) : State :=
  match s.stream v st with
  | none => s
  | some x =>
    let n := 4 * x.promptLen
    (upTo (ceilDiv n 4096)).foldl (fun u i =>
        u.offer (.pcie (s.portOf x.queue)) false (seatOf v) (.trip { vat := v, bytes := min 4096 (n - 4096 * i), owner := .prompt v st }))
      (s.setStream v st { x with promptTrips := ceilDiv n 4096 })

/-- A completion entry written to its queue (R320, R326): TAIL moves, PHASE turns over with each pass, delivered tokens are counted,
and a stream's last entry ends its record. The entry leaves through its queue's host port, under its vat's share (R319). -/
def State.writeCompletion (s : State) (n : QueueId) (who : Option (VatId × StreamId)) (c : Completion) : State :=
  let tail := s.rfld (.queCq n 1) 47 32
  let phase := s.rfld (.queCq n 1) 28 28
  let s1 := s.offer (.pcie (s.portOf n)) true (seatOf c.vat)
    (.trip { vat := c.vat, bytes := 64, owner := .entry n (.completion n tail (completionBytes c (s.rfld (.queSq n 1) 47 32) phase)) })
  let next_ := (tail + 1) % (s.rfld (.queCq n 1) 15 0 + 1)
  let s2 := s1.putR (.queCq n 1) 47 32 next_
  let s3 := if next_ = 0 then s2.putR (.queCq n 1) 28 28 (1 - phase) else s2
  let s4 := s3.bumpR (.ladleQStat n) 31 0 c.tokens.length
  match who with
  | some (v, st) => if c.fin then s4.dropStream v st n else s4
  | none => s4.refreshQue n
/-- A completion written, or held behind those already held (R327). -/
def State.post_ (s : State) (n : QueueId) (who : Option (VatId × StreamId)) (c : Completion) : State :=
  if s.cqBlocked n || !(s.qp n).held.isEmpty then s.modQp n (fun q => { q with held := q.held ++ [(who, c)] })
  else s.writeCompletion n who c
/-- A stream's entry is held. -/
def State.isHeld (s : State) (v : VatId) (st : StreamId) (x : Stream) : Bool :=
  (s.qp x.queue).held.any (fun e => e.1 == some (v, st)) || s.twin.unacked.any (fun u => u.who == some (v, st))

/-- This module is active for a vat in a pair that is SYNCING or MIRRORED, and has begun to copy it to the standby (R300, R301). -/
def State.mirroring (s : State) (v : VatId) : Bool :=
  (s.rfld .twinStatus 2 0 = 1 || s.rfld .twinStatus 2 0 = 2) && s.rfld .twinOwner v v = 1 && !(s.vat v).alone && !(s.vat v).unsynced
/-- What the standby is told of a stream (R301 STREAM). -/
def mirrorInfo (st : StreamId) (x : Stream) : MirrorStream :=
  { stream := st, cmdId := x.cmdId, maxNew := x.maxNew, stops := x.stops, queue := x.queue, cust := x.cust, limit := x.limit,
    variant := x.variant, topK := x.topK, invTemp := x.invTemp, topP := x.topP, seed := x.seed, newTokens := x.newTokens,
    lastToken := x.lastToken, announced := x.announced }
/-- The queues of a vat with what the ladle has fetched, and the entries of streams that no pail has taken yet (R301 LADLE). -/
def State.waitingEntries (s : State) (v : VatId) : List (QueueId × List Byte × Nat) :=
  (s.vat v).streams.filterMap (fun e =>
      if e.2.target.isNone && !e.2.ended && e.2.entryTick = 0 && !e.2.entry.isEmpty then some (e.2.queue, e.2.entry, e.2.fetchTick) else none)
    ++ s.queues.flatMap (fun q => if s.rfld (.que q.1) 6 1 = v.val then q.2.fetched.map (fun f => (q.1, f.bytes, f.tick)) else [])
/-- The standby is told of the ladle's state: cursor, credits, balances and the entries fetched and not yet admitted (R301 LADLE). -/
def State.sendLadle (s : State) (v : VatId) : State :=
  s.sendRecord 5 v (.ladle v (s.vat v).cursor (s.vat v).credits
    ((s.customersOf v).map (fun c => (c, w32 (s.rfld (.ladleCust c 1) 31 0)))) (s.waitingEntries v))
/-- TWIN_STATUS.PENDING as it stands. -/
def State.refreshPending (s : State) : State :=
  s.putR .twinStatus 31 16 (min 65535 (s.twin.unacked.filter (fun u => !u.acked)).length)
/-- A completion delivered: at once, or behind the completions that wait for the standby; one that rests on a COMMIT waits for its
acknowledgement (R301); await gives the bytes of fresh records it covers. -/
def State.deliver (s : State) (n : QueueId) (who : Option (VatId × StreamId)) (lc : Nat) (await : Option Nat) (c : Completion) : State :=
  if await.isSome || s.twin.unacked.any (fun u => u.queue = n) then
    let u : Unacked := { queue := n, who := who, lc := lc, acked := await.isNone, bytes := await.getD 0, comp := some c }
    ({ s with twin := { s.twin with unacked := s.twin.unacked ++ [u] } }).refreshPending
  else s.post_ n who c
/-- The vat that a waiting COMMIT or completion belongs to. -/
def Unacked.vat (u : Unacked) : Option VatId :=
  match u.comp with
  | some c => some c.vat
  | none => u.who.map Prod.fst
/-- The completions at the front of the list that have been acknowledged are written; those of a vat that is being handed over are
the standby's to write (R304, R305). -/
def State.releaseAcked (s : State) : List Unacked → State
  | [] => { s with twin := { s.twin with unacked := [] } }
  | u :: us =>
    if u.acked then
      (match u.comp with
       | some c => if (s.vat c.vat).handing then s else s.post_ u.queue u.who c
       | none => s).releaseAcked us
    else { s with twin := { s.twin with unacked := u :: us } }
def State.drainAcked (s : State) : State := (s.releaseAcked s.twin.unacked).refreshPending

/-- A stream's completion, its first with the ticks of fetch and pail entry. -/
def completionOf (v : VatId) (st : StreamId) (x : Stream) (status : Status) (fin : Bool) (tokens : List Word32) (tick : Nat) :
    Completion :=
  { cmdId := x.cmdId, status := status, first := !x.announced, fin := fin, tokens := tokens, vat := v,
    stream := BitVec.ofNat 16 st.val, lc := x.lc, commitTick := tick,
    fetchTick := if x.announced then 0 else x.fetchTick, entryTick := if x.announced then 0 else x.entryTick }

/-! ## The end of a stream (R139, R268) -/

/-- The ticks of a SKIM_IDLE window that starts now, 0 while idle skimming is off (R52, R140). -/
def State.idleWin (s : State) (v : VatId) : Nat :=
  if s.vfld v .kvConf 39 28 = 0 then 0 else s.winTicks (1000000 * s.vfld v .kvConf 39 28)
/-- A stream off its pail; its ready tick stays. -/
def State.vacate (s : State) (v : VatId) (st : StreamId) : State :=
  match s.stream v st with
  | some x =>
    (match x.seat with
     | some (p, i) =>
       let pl := s.pail v p
       (s.setPail v p { pl with slots := pl.slots.set i none, commitsDue := pl.commitsDue.filter (fun y => y ≠ st),
                                speculating := pl.speculating && decide (pl.slots[i]? ≠ some (some st)) }).setStream v st
         { x with seat := none, inPass := false, idleSince := s.now, idleTicks := s.idleWin v }
     | none => s)
  | none => s
/-- A variant's USERS. -/
def State.useVariant (s : State) (n : BitVec 16) (more : Bool) : State :=
  match toFin? 4096 n.toNat with
  | some i => s.putR (.ladleVariant i 1) 10 0 (if more then s.rfld (.ladleVariant i 1) 10 0 + 1 else s.rfld (.ladleVariant i 1) 10 0 - 1)
  | none => s
/-- What a stream holds is given back (R139); a draft stream has no completion to write and is gone. -/
def State.freeStream (s : State) (v : VatId) (st : StreamId) : State :=
  match (s.vacate v st).stream v st with
  | none => s
  | some x =>
    let s1 := ((s.vacate v st).useVariant x.variant false).keep v st
      { x with pages := [], incoming := [], reserved := 0, skimSlots := [], ended := true, skimAsked := none, skimming := false,
               restoring := false, draft := none }
    let s2 := s1.modVat v (fun w => { w with pass := w.pass.map (fun p => p.filter (fun y => y ≠ st)) })
    if x.target.isSome then s2.dropStream v st x.queue else s2
/-- A draft stream and its target parted: the target goes on with d = 0, and a draft stream without its target ends (R273). -/
def State.unbind (s : State) (x : Stream) : State :=
  let s1 := match x.draft with
    | some (dv, ds) => s.freeStream dv ds
    | none => s
  match x.target with
  | some (tv, ts) =>
    (match s1.stream tv ts with
     | some y => s1.setStream tv ts { y with draft := none, draftBuf := [] }
     | none => s1)
  | none => s1

/-- The bytes of a host SKIM entry's or CANCEL entry's own completion (R325). -/
def controlCompletion (v : VatId) (cmd : BitVec 16) (status : Status) (stream : Option StreamId) (tick : Nat) : Completion :=
  { cmdId := cmd, status := status, control := true, vat := v, commitTick := tick,
    stream := match stream with
      | some x => BitVec.ofNat 16 x.val
      | none => 0xFFFF }
/-- A SKIM entry still open on a stream that ends is answered: its target is no unfinished stream any more; at a vat reset it gets
RESET (R325). -/
def State.closeSkim (s : State) (v : VatId) (x : Stream) (status : Status) : State :=
  match x.skimAsked with
  | some (some cmd) =>
    s.deliver x.queue none 0 none (controlCompletion v cmd (if status = .reset then .reset else .nostream) none s.now)
  | _ => s

/-- A stream ends with a status and its last tokens: its pages and reservation are freed, the standby is told, and its final
completion is written (R139, R268, R301). -/
def State.endStream (s : State) (v : VatId) (st : StreamId) (status : Status) (tokens : List Word32) (tick : Nat)
    (await : Option Nat := none) : State :=
  match s.stream v st with
  | none => s
  | some x =>
    if x.ended then s
    else
      let c := completionOf v st x status true tokens tick
      let s1 := (s.unbind x).freeStream v st
      let s2 := if s.mirroring v && x.target.isNone then s1.sendRecord 5 v (.ended v st status) else s1
      if x.target.isSome then s2.refreshStreams v
      else ((s2.deliver x.queue (some (v, st)) x.lc await c).closeSkim v x status).refreshQue x.queue

end Sys2Proof.Machine
end

