-- ==== Sys2Proof/Machine/Ladle.lean ====
section
/-! DEFINITION. The ladle: budget windows (R269), fills (R121, R270 to R272), commits (R41, R134, R137, R248, R268, R273), skims and
restores (R140, R141). -/

namespace Sys2Proof.Machine

/-! ## Budget windows (R269) -/

/-- One customer at a window's first tick. -/
def State.refill (s : State) (c : Fin 4096) : State :=
  let b := s.rfld (.ladleCust c 0) 31 0
  let k := s.cust c
  let s1 := { s with custs := kset s.custs c { eff := w32 b, hit := false, lastEff := k.eff, lastHit := k.hit,
                                                last := w32 (s.rfld (.ladleCust c 1) 31 0) } }
  if b = 0xFFFFFFFF then s1 else s1.setBalance c (min (s.balance c) 0 + b)

/-- The window of a vat that has begun when the one kept is over: its customers are refilled (R52, R269). -/
def State.nextWindow (s : State) (v : VatId) : State :=
  let w := s.vat v
  if !(s.vstate v = 2 || s.vstate v = 3 || s.vstate v = 4) || !windowOver w.winStart w.winLen s.now then s
  else
    let s1 := s.modVat v (fun x =>
      { x with winStart := (w.winStart + w.winLen) % 2 ^ 48, winLen := s.winTicks (1000 * s.vfld v .vatLadle 15 0) })
    let s2 := (s.customersOf v).foldl (fun u c => u.refill c) s1
    if s.mirroring v then s2.sendLadle v else s2
/-- So many windows, at most, begun in turn. -/
def State.windowsUp (s : State) (v : VatId) : Nat → State
  | 0 => s
  | n + 1 =>
    if !(s.vstate v = 2 || s.vstate v = 3 || s.vstate v = 4) || !windowOver (s.vat v).winStart (s.vat v).winLen s.now then s
    else (s.nextWindow v).windowsUp v n
/-- Every window whose first tick has come has its refills, before any charge or check of eligibility of that tick (R269). -/
def State.settleWindows (s : State) (v : VatId) : State := s.windowsUp v (ticksFrom (s.vat v).winStart s.now + 1)

/-- BUDGET_WINDOW: at a window's first tick each customer of the vat is refilled, and the next window is laid out (R52, R269). -/
def execBudgetWindow (v : VatId) (s : State) : Result := .next (s.nextWindow v)

/-! ## Skimming (R140) -/

/-- Some page of the stream is parked. -/
def Stream.skimmed (x : Stream) : Bool := x.pages.any PageEntry.skimmed
/-- The vat's free skim slots, lowest first. -/
def State.freeSkimSlots (s : State) (v : VatId) : List Nat :=
  let used := (s.vat v).streams.flatMap (fun e => e.2.skimSlots)
  (upTo (s.vfld v .kvSkimbase 63 48)).filter (fun k => !used.contains k)
/-- The KV-bearing layers of a ring, by their place among the layer stages. -/
def State.kvLayers (s : State) (v : VatId) : List Nat :=
  (upTo (s.ring v).length).filterMap (fun k => match (s.ring v)[k]? with
    | some x => if x.kvStage.isSome then layerIndex (s.ring v) k else none
    | none => none)
/-- The number L of layer stages. -/
def State.layers (s : State) (v : VatId) : Nat := ((s.ring v).filter (fun x => x.kind = .layer)).length
/-- No hand-off of the stream is outstanding (R246, R248). -/
def State.handedOver (s : State) (v : VatId) (x : Stream) : Bool :=
  x.rewrites.isEmpty && (!x.firstPass || x.promptLen ≤ 1
    || (s.kvLayers v).all (fun j => x.handoffs.any (fun h => h.1 = j)))
/-- A stream asked to be skimmed that stands in no pail begins its copy, if its vat has the slots; without them a host's entry is
answered with NOSPACE, and an idle skim waits for a further SKIM_IDLE. -/
def State.trySkim (s : State) (v : VatId) (st : StreamId) : State :=
  match s.stream v st with
  | none => s
  | some x =>
    if x.skimAsked.isNone || x.seat.isSome || x.ended || x.phase ≠ .decoding || x.skimmed || x.skimming || x.restoring
      || !s.handedOver v x then s
    else
      let need := ceilDiv x.lc 64
      let free := s.freeSkimSlots v
      if need ≤ free.length then s.setStream v st { x with skimming := true, skimSlots := free.take need }
      else
        let s1 := s.setStream v st { x with skimAsked := none, idleSince := s.now, idleTicks := s.idleWin v }
        match x.skimAsked with
        | some (some cmd) => s1.deliver x.queue none 0 none (controlCompletion v cmd .nospace (some st) s.now)
        | _ => s1

/-- The KV-bearing stages of the ring, in ring order. -/
def State.kvStages (s : State) (v : VatId) : List StageInfo := (s.ring v).filter (fun x => x.kvStage.isSome)
/-- Where record i of a page lies in the n-th KV-bearing stage: core and address (R116, R118); member m of group g is core
g × MEMBERS + m of the stage's list (log entry 18). -/
def State.recordPlace (s : State) (v : VatId) (n : Nat) (x : StageInfo) (page i : Nat) : Option (CoreId × Nat) :=
  match toFin? 256 n with
  | none => none
  | some k =>
    let r := s.vfld v (.kvStage k) 27 20
    let line := s.vfld v (.kvStage k) 11 0 + s.vfld v (.kvStage k) 19 12 * (page / s.kvGroups v)
    if r = 0 || s.kvGroups v = 0 then none
    else (x.cores[page % s.kvGroups v * s.vfld v (.kvStage k) 39 28 + i / r]?).map (fun c => (c, 512 * line + s.recordBytes v * (i % r)))
/-- Bytes of a KV record written into a core: the ladle, the presses and the standby never write its weight area (R26). -/
def Core.putKv (k : Core) (a : Nat) (bs : List Byte) : Core :=
  if a < 512 * k.wb then k else { k.healed a bs.length with mem := memPut k.mem a bs }
/-- The same, with the corrected errors of the words that it merges counted (R23). -/
def State.putKvAt (s : State) (c : CoreId) (a : Nat) (bs : List Byte) : State :=
  (s.mergeCounted c a bs.length).modCore c (fun k => k.putKv a bs)
/-- The bytes of one page in a stage, record by record. -/
def State.pageBytes (s : State) (v : VatId) (n : Nat) (x : StageInfo) (page : Nat) : List Byte :=
  (upTo (64 * s.kvHeads v)).flatMap (fun i => match s.recordPlace v n x page i with
    | some (c, a) => memBytes (s.core c).mem a (s.recordBytes v)
    | none => List.replicate (s.recordBytes v) 0)
/-- Bytes of a page written back into a stage. -/
def State.putPage (s : State) (v : VatId) (n : Nat) (x : StageInfo) (page : Nat) (bs : List Byte) : State :=
  (upTo (64 * s.kvHeads v)).foldl (fun u i => match u.recordPlace v n x page i with
    | some (c, a) => u.putKvAt c a ((bs.drop (i * s.recordBytes v)).take (s.recordBytes v))
    | none => u) s
/-- The stages with their place among the KV-bearing ones. -/
def State.kvNumbered (s : State) (v : VatId) : List (Nat × StageInfo) := (upTo (s.kvStages v).length).zip (s.kvStages v)
/-- The stack address of a stage's part of a skim slot (R140). -/
def State.skimAddr (s : State) (v : VatId) (slot n : Nat) : Nat :=
  s.vfld v .kvSkimbase 47 0 + (slot * (s.kvStages v).length + n) * (64 * s.kvHeads v * s.recordBytes v)

/-- SKIM_COPY_DONE: the copies below ceil(Lc ÷ 64) stand in their slots; the entries are marked, pages and reservation are freed, and a
host's SKIM entry completes (R140, R325). -/
def execSkimCopyDone (v : VatId) (st : StreamId) (s : State) : Result :=
  match s.stream v st with
  | none => .next s
  | some x =>
    if !x.skimming then .next s
    else
      let s1 := (x.pages.zip x.skimSlots).foldl (fun u e =>
        (s.kvNumbered v).foldl (fun w k => w.stackWrite (s.skimAddr v e.2 k.1) (s.pageBytes v k.1 k.2 e.1.number)) u) s
      let s2 := s1.keep v st { x with pages := x.skimSlots.map (fun n => { number := n, skimmed := true }), reserved := 0,
                                      skimming := false, skimAsked := none }
      .next (match x.skimAsked with
        | some (some cmd) => s2.deliver x.queue none 0 none (controlCompletion v cmd .ok (some st) s.now)
        | _ => s2)

/-- SKIM_IDLE: a stream idle for SKIM_IDLE ms, with no skim asked for, is skimmed (R140). -/
def execSkimIdle (v : VatId) (st : StreamId) (s : State) : Result :=
  match s.stream v st with
  | none => .next s
  | some x =>
    let ms := s.vfld v .kvConf 39 28
    if ms = 0 || x.skimAsked.isSome || x.seat.isSome || x.phase ≠ .decoding || x.skimmed || x.skimming || x.restoring || x.ended
      || !s.handedOver v x || !windowOver x.idleSince (if x.idleTicks = 0 then s.idleWin v else x.idleTicks) s.now then .next s
    else .next ((s.setStream v st { x with skimAsked := some none }).trySkim v st)

/-! ## Restoring (R141, R255) -/

/-- A skimmed stream's restore begins: its reservation is made again, with its g0 where that still satisfies R121, and its pages
are taken; without room it waits. Its entries stay SKIMMED until the slots have been copied back. -/
def State.beginRestore (s : State) (v : VatId) (st : StreamId) : State :=
  match s.stream v st with
  | none => s
  | some x =>
    let need := pagesFor x.limit
    match if s.roomFrom v x.g0 need then some x.g0 else s.findG0 v none need with
    | none => s
    | some g0 =>
      let n := max x.pages.length (entriesFor x)
      s.keep v st { x with g0 := g0, reserved := need, incoming := s.freshPages v g0 [] n, restoring := true }

/-- RESTORE_DONE: each skim slot has been copied back and is free, and the stream is ready again. A slot that a fenced channel or a
double-bit error has lost ends the stream with ECCFATAL, unless the twin's mirror gives it back (R141, R255). -/
def execRestoreDone (v : VatId) (st : StreamId) (s : State) : Result :=
  match s.stream v st with
  | none => .next s
  | some x =>
    if !x.restoring then .next s
    else
      let size := 64 * s.kvHeads v * s.recordBytes v
      let lost := x.skimSlots.any (fun k => (s.kvNumbered v).any (fun n => s.stackFails (s.skimAddr v k n.1) size))
      if lost && !s.mirroring v then .next (s.endStream v st .eccfatal [] s.now)
      else
        let s0 := x.skimSlots.foldl (fun u k => (s.kvNumbered v).foldl (fun w n =>
          (w.countStackFatal (s.skimAddr v k n.1) size).countStackFixed (s.skimAddr v k n.1) size) u) s
        let s1 := (x.incoming.zip x.skimSlots).foldl (fun u e =>
          (s.kvNumbered v).foldl (fun w k =>
            w.putPage v k.1 k.2 e.1.number (s.stackRead (s.skimAddr v e.2 k.1) size)) u) s0
        .next ((s1.keep v st { x with pages := x.incoming, incoming := [], restoring := false, skimSlots := [], idleSince := s.now,
                                      idleTicks := s.idleWin v }).trySkim v st)

/-! ## Filling a pail (R121, R123, R270 to R273) -/

/-- The streams that ride a pail. -/
def State.riders (s : State) (v : VatId) (p : Nat) : List Stream :=
  ((s.pail v p).slots.filterMap id).filterMap (fun st => s.stream v st)
/-- Slots that a pail can still give: a speculating stream takes the whole pail (R41). -/
def Pail.freeSlots (p : Pail) : Nat := if p.speculating then 0 else (p.slots.filter Option.isNone).length
/-- The drafts that a target carries: those buffered, at positions no greater than LIM − 1 (R273). -/
def draftsOf (x : Stream) : List Word32 := if x.draft.isSome then x.draftBuf.take (min 3 (x.limit - 1 - x.lc)) else []
/-- The cost of a stream in a fill. -/
def costOf (x : Stream) : Nat := if (draftsOf x).isEmpty then 1 else 4

/-- A stream is ready (R270, R327). -/
def State.isReady (s : State) (v : VatId) (st : StreamId) (x : Stream) : Bool :=
  !x.ended && x.seat.isNone && !x.skimmed && !x.skimming && !x.restoring && x.skimAsked.isNone && decide (x.phase = .decoding)
    && x.rewrites.isEmpty && !s.isHeld v st x
/-- Streams by ascending ready tick, then number. -/
def insertByTick (p : StreamId × Stream) : List (StreamId × Stream) → List (StreamId × Stream)
  | [] => [p]
  | q :: qs => if p.2.readyTick < q.2.readyTick || (p.2.readyTick = q.2.readyTick && p.1.val < q.1.val) then p :: q :: qs
               else q :: insertByTick p qs
def sortByTick : List (StreamId × Stream) → List (StreamId × Stream)
  | [] => []
  | p :: ps => insertByTick p (sortByTick ps)

/-- The stage table of the variant lies in a fenced granule: no new stream of it is admitted (R255). -/
def State.variantLost (s : State) (x : Stream) : Bool :=
  match toFin? 4096 x.variant.toNat with
  | some i => x.entryTick = 0 && s.fencedGranule (s.rfld (.ladleVariant i 0) 54 7) 2048
  | none => false
/-- The limit of a stream, fixed when it takes its reservation (R121). -/
def State.limitOf (s : State) (v : VatId) (x : Stream) : Nat := if x.reserved = 0 then min x.limit (s.vfld v .kvLimit 16 0) else x.limit
/-- A stream fits a pail: the first group it takes, none where it does not fit (R121, R270). -/
def State.fitIn (s : State) (v : VatId) (p : Nat) (x : Stream) : Option Nat :=
  let rs := s.riders v p
  let lim := s.limitOf v x
  if ((s.pail v p).speculating || (!(draftsOf x).isEmpty && !rs.isEmpty)) || s.variantLost x
    || s.vfld v .vatLadle 34 16 < (rs.map Stream.limit).foldl (· + ·) 0 + lim then none
  else if x.reserved = 0 then s.findG0 v (some rs) (pagesFor lim)
  else if s.groupsFit v rs x.g0 x.reserved then some x.g0 else none

/-- A stream placed in a pail, in the lowest free slot (R271). Its first entry is counted with its wait, and mirrored (R274, R301). -/
def State.place (s : State) (v : VatId) (p : Nat) (st : StreamId) (x : Stream) (g0 : Nat) : State :=
  let pl := s.pail v p
  let i := (pl.slots.findIdx? Option.isNone).getD 0
  let lim := s.limitOf v x
  let d := draftsOf x
  let first := decide (x.entryTick = 0)
  let y := { x with seat := some (p, i), g0 := g0, limit := lim, reserved := pagesFor lim, drafts := d, stageEntries := [],
                    entryTick := if first then s.now else x.entryTick }
  let s1 := ((s.setPail v p { pl with slots := pl.slots.set i (some st), speculating := !d.isEmpty }).keep v st y).extend v st
  if first && x.target.isNone then
    let s2 := s1.bumpR (.ladleQStat x.queue) 47 32 1
    let us := ticksFrom x.fetchTick s.now * s.period / 1000
    let s3 := (s2.putR (.ladleQStat x.queue) 63 48 (min 65535 (max (s2.rfld (.ladleQStat x.queue) 63 48) us))).refreshQue x.queue
    if s.mirroring v then s3.sendRecord 5 v (.stream v (mirrorInfo st y)) else s3
  else s1

/-- A fill under way: the state, the tries made, and whether it has returned. -/
structure FillRun where
  s : State
  tries : Nat := 0
  stop : Bool := false

/-- The candidates of a queue tried in order while the queue has credit: what is left of the credit, and the run. -/
def FillRun.tryAll (a : FillRun) (v : VatId) (p : Nat) (credit : Nat) : List StreamId → Nat × FillRun
  | [] => (credit, a)
  | st :: rest =>
    match a.s.stream v st with
    | none => a.tryAll v p credit rest
    | some x =>
      if (a.s.pail v p).freeSlots = 0 || a.tries = 32 then (credit, { a with stop := true })
      else if credit < costOf x then (credit, a)
      else
        match a.s.fitIn v p x with
        | some g0 => FillRun.tryAll { a with s := a.s.place v p st x g0, tries := a.tries + 1 } v p (credit - costOf x) rest
        | none => FillRun.tryAll { a with tries := a.tries + 1 } v p credit rest

/-- The ready streams of a queue whose customer is eligible, in order. -/
def State.candidates (s : State) (v : VatId) (q : QueueId) : List StreamId :=
  let c : Fin 4096 := ⟨s.rfld (.que q) 26 15 % 4096, Nat.mod_lt _ (by decide)⟩
  if s.eligible c then
    (sortByTick ((s.vat v).streams.filter (fun e => e.2.queue = q && e.2.target.isNone && s.isReady v e.1 e.2))).map Prod.fst
  else []

/-- One queue's turn in a fill. -/
def FillRun.queueTurn (a : FillRun) (v : VatId) (p : Nat) (qs : List QueueId) (q : QueueId) : FillRun :=
  if a.stop then a
  else
    let after := (qs.find? (fun x => q.val < x.val)).getD (qs.headD q)
    let s1 := a.s.modVat v (fun w => { w with cursor := after.val })
    let w := s1.rfld (.que q) 14 7
    let cand := s1.candidates v q
    let setCredit (u : State) (c : Nat) : State := u.modVat v (fun x => { x with credits := kset x.credits q c })
    if w = 0 || cand.isEmpty then { a with s := setCredit s1 0 }
    else
      let r := FillRun.tryAll { a with s := s1 } v p (min (kget 0 (s1.vat v).credits q + w) (w + 3)) cand
      { r.2 with s := setCredit r.2.s r.1 }

/-- Insertion of a queue number in ascending order. -/
def insertQ (q : QueueId) : List QueueId → List QueueId
  | [] => [q]
  | x :: xs => if q.val < x.val then q :: x :: xs else if q = x then x :: xs else x :: insertQ q xs
/-- The vat's queue pairs that a fill visits: enabled ones, and those whose fetched streams are still served (R266, R270). -/
def State.fillQueues (s : State) (v : VatId) : List QueueId :=
  let en := s.regs.filterMap (fun p =>
    match p.1 with
    | .que n => if bitAt p.2 0 && fld p.2 6 1 = v.val then some n else none
    | _ => none)
  let old := (s.vat v).streams.filterMap (fun e => if e.2.target.isNone && !e.2.ended then some e.2.queue else none)
  (en ++ old).foldl (fun l q => insertQ q l) []
/-- One round over the queues, from the cursor on. -/
def FillRun.round (a : FillRun) (v : VatId) (p : Nat) (qs : List QueueId) : FillRun :=
  let cur := (a.s.vat v).cursor
  (qs.filter (fun q => cur ≤ q.val) ++ qs.filter (fun q => q.val < cur)).foldl (fun b q => b.queueTurn v p qs q) a

/-- Draft streams take what slots the rounds leave, by ready tick (log entry 19). -/
def FillRun.drafts (a : FillRun) (v : VatId) (p : Nat) : FillRun :=
  if a.stop then a
  else
    let ds := (sortByTick ((a.s.vat v).streams.filter (fun e => e.2.target.isSome && a.s.isReady v e.1 e.2))).map Prod.fst
    (a.tryAll v p ds.length ds).2

/-- A rider leaves its pail at a fill (R261, R270, R327). -/
def State.mustLeave (s : State) (v : VatId) (st : StreamId) (x : Stream) : Bool :=
  x.ended || x.skimAsked.isSome || s.vstate v ≠ 2 || (s.vat v).handing || s.isHeld v st x
    || (x.target.isNone && !s.eligible ⟨s.rfld (.que x.queue) 26 15 % 4096, Nat.mod_lt _ (by decide)⟩)
/-- The riders that stay take the drafts they now carry: only a lone target in slot 0 can speculate (R39, R271, R273). -/
def State.redraft (s : State) (v : VatId) (p : Nat) : State :=
  match (s.pail v p).slots.filterMap id with
  | [st] =>
    (match s.stream v st with
     | some x =>
       let d := if decide (x.seat = some (p, 0)) then draftsOf x else []
       (s.setStream v st { x with drafts := d }).setPail v p { s.pail v p with speculating := !d.isEmpty }
     | none => s)
  | sts => (sts.foldl (fun u st => match u.stream v st with
      | some x => u.setStream v st { x with drafts := [] }
      | none => u) s).setPail v p { s.pail v p with speculating := false }

/-- A slot's descriptor (R123, R279). -/
def State.descriptor (s : State) (st : StreamId) (x : Stream) : List Byte :=
  let base := match toFin? 4096 x.variant.toNat with
    | some i => s.rfld (.ladleVariant i 0) 54 7
    | none => 0
  leBytes 2 st.val ++ leBytes 2 x.variant.toNat ++ leBytes 4 x.lc ++ leBytes 2 x.lc ++ leBytes 1 (1 + x.drafts.length)
    ++ leBytes 1 x.g0 ++ leBytes 2 x.pages.length ++ leBytes 2 x.topK ++ leBytes 4 x.invTemp.toNat ++ leBytes 4 x.topP.toNat
    ++ leBytes 8 x.seed.toNat ++ leBytes 6 base ++ List.replicate 26 0
/-- A list entry as the ladle reads it from the vat's list area: the first copy, the second where the first gives ECCFATAL, and where both
do a free value (R251; log entry 70). -/
def State.listEntry (s : State) (v : VatId) (st : StreamId) (i : Nat) : List Byte :=
  let a := s.vfld v .kvListbase 47 0 + 4096 * st.val + 4 * i
  if !s.stackFails a 4 then s.stackRead a 4
  else if !s.stackFails (a + 4194304) 4 then s.stackRead (a + 4194304) 4
  else leBytes 4 ((Config.freeWord (s.freeCtr + 1024 * st.val + i)).toNat % 2 ^ 32)
/-- The double-bit errors that the reading of a list meets, counted (R254). -/
def State.countList (s : State) (v : VatId) (st : StreamId) (n : Nat) : State :=
  let a := s.vfld v .kvListbase 47 0 + 4096 * st.val
  let s1 := (s.countStackFatal a (4 * n)).countStackFixed a (4 * n)
  if s.stackFails a (4 * n) then s1.countStackFatal (a + 4194304) (4 * n) else s1
/-- Some list entry that a pail's header needs has been lost in both copies. -/
def State.listLost (s : State) (v : VatId) (p : Nat) : Bool :=
  ((s.pail v p).slots.filterMap id).any (fun st => match s.stream v st with
    | some x => (upTo x.pages.length).any (fun i =>
        let a := s.vfld v .kvListbase 47 0 + 4096 * st.val + 4 * i
        s.stackFails a 4 && s.stackFails (a + 4194304) 4)
    | none => false)
/-- A pail's header: four descriptors, then the list entries slot by slot (R123, R271). -/
def State.headerOf (s : State) (v : VatId) (p : Nat) : List Byte :=
  let xs := (s.pail v p).slots.map (fun o => o.bind (fun st => (s.stream v st).map (fun x => (st, x))))
  xs.flatMap (fun o => match o with
    | some (st, x) => s.descriptor st x
    | none => List.replicate 64 0)
    ++ xs.flatMap (fun o => match o with
      | some (st, x) => (upTo x.pages.length).flatMap (fun i => s.listEntry v st i)
      | none => [])
/-- A pail's header written, with what its reading of the lists counts. -/
def State.writeHeader (s : State) (v : VatId) (p : Nat) : State :=
  let s1 := s.setPail v p { s.pail v p with header := s.headerOf v p }
  let s2 := if s.listLost v p then { s1 with freeCtr := s1.freeCtr + 2 ^ 20 } else s1
  ((s.pail v p).slots.filterMap id).foldl (fun u st => match s.stream v st with
    | some x => u.countList v st x.pages.length
    | none => u) s2
/-- The riders of a filled pail begin a pass, each with its last token as input (R272, R273). -/
def State.beginPass (s : State) (v : VatId) (p : Nat) : State :=
  ((s.pail v p).slots.filterMap id).foldl (fun u st => match u.stream v st with
    | some x => u.setStream v st { x with inPass := true, passToken := x.lastToken }
    | none => u) s

/-- Skimmed streams that a pail with room would take are restored first (R141, log entry 19). -/
def State.restoreSome (s : State) (v : VatId) (p : Nat) : State :=
  if (s.pail v p).freeSlots = 0 then s
  else
    (sortByTick ((s.vat v).streams.filter (fun e =>
      e.2.skimmed && !e.2.restoring && !e.2.skimming && !e.2.ended && e.2.skimAsked.isNone && s.rfld (.que e.2.queue) 14 7 ≠ 0
        && s.eligible ⟨s.rfld (.que e.2.queue) 26 15 % 4096, Nat.mod_lt _ (by decide)⟩))).foldl
      (fun u e => u.beginRestore v e.1) s

/-- The standby is told which streams ride a pail (R301 FILL). -/
def State.sendFill (s : State) (v : VatId) (pail : Nat) : State := s.sendRecord 5 v (.fill v pail ((s.pail v pail).slots.filterMap id))
/-- FILL: once per pass of each pail, when its commits have been applied, the ladle vacates and fills its slots and writes its
header (R270 to R272). While the vat quiesces, and in a shutdown, it places nothing (R261, R353). -/
def execFill (v : VatId) (pail : Nat) (s0 : State) : Result :=
  let s := s0.settleWindows v
  let n := (s.ring v).length
  let pl := s.pail v pail
  if !(s.vstate v = 2 || s.vstate v = 3) || s.chained v || n = 0 || pailAt n (s.vat v).edges (n - 1) ≠ pail || !pl.commitsDue.isEmpty
    || pl.filledAt = some (s.vat v).edges then .next s
  else
    let s1 := (pl.slots.filterMap id).foldl (fun u st => match u.stream v st with
      | some x => if u.mustLeave v st x then (u.vacate v st).trySkim v st else u
      | none => u) s
    let s2 := s1.redraft v pail
    let s3 := if s.vstate v = 2 && !(s.vat v).handing && s.modState ≠ 6 then
        let qs := s2.fillQueues v
        let r := ((upTo 4).foldl (fun (a : FillRun) _ => a.round v pail qs) { s := s2 }).drafts v pail
        r.s.restoreSome v pail
      else s2
    let s4 := ((s3.setPail v pail { s3.pail v pail with headerWait := true, filledAt := some (s.vat v).edges }).writeHeader v
      pail).beginPass v pail
    .next (if s.mirroring v then s4.sendFill v pail else s4)

/-- A header as the ACT flits that carry it, 64 bytes each, to its place in a core. -/
def headerFlits (v : VatId) (a : Nat) (bs : List Byte) : List Flit :=
  (upTo (ceilDiv bs.length 64)).map (fun i =>
    let d := (bs.drop (64 * i)).take 64
    { vat := v, cls := 1, head := decide (i = 0), tail := decide (64 * (i + 1) ≥ bs.length), dstAddr := a + 64 * i, bytes := d.length, data := d })
/-- HEADER_ACKNOWLEDGE: the first layer stage acknowledges the pail's header, the ladle's part of the beat gate (R272); the header stands
in the hand-off buffer of that stage's header core, and the edge releases it with the pail (R44, R123). -/
def execHeaderAcknowledge (v : VatId) (pail : Nat) (s : State) : Result :=
  let pl := s.pail v pail
  if !pl.headerWait then .next s
  else
    let s1 := s.setPail v pail { pl with headerWait := false }
    match ((s.vat v).ingot).bind IngotTable.headerAt with
    | some (c, a) => .next (s1.modCore c (fun k => { k with handoff := k.handoff ++ headerFlits v a pl.header }))
    | none => .next s1

/-! ## Commits (R41, R134, R137, R248, R268, R273) -/

/-- The drafts accepted: the longest prefix equal to the tokens sampled (R41). -/
def acceptedOf : List Word32 → List Word32 → Nat
  | d :: ds, t :: ts => if d = t then acceptedOf ds ts + 1 else 0
  | _, _ => 0

/-- How many of a commit's tokens are delivered, and the status with which the stream ends, none while it goes on (R134, R268). -/
def commitEnd (x : Stream) (toks : List Word32) : Nat × Option Status :=
  let stop := (toks.findIdx? (fun t => x.stops.contains t)).map (· + 1)
  let most := if x.maxNew ≠ 0 ∧ x.maxNew - x.newTokens ≤ toks.length then some (x.maxNew - x.newTokens) else none
  match stop, most with
  | some a, some b => (min a b, some .ok)
  | some a, none => (a, some .ok)
  | none, some b => (b, some .ok)
  | none, none => (toks.length, if x.limit ≤ x.lc + toks.length || x.atLimit then some .length else none)

/-- The layers whose hand-off missed the pail's first pass: not complete at a tick lower than that of the edge at which the pail
entered the stage (R248). -/
def missedLayers (x : Stream) : List Nat :=
  if x.firstPass && 1 < x.promptLen then
    (x.stageEntries.filter (fun e => !(x.handoffs.any (fun h => h.1 = e.1 && h.2 < e.2)))).map Prod.fst
  else []

/-- What a draft stream's tokens at positions from a position on add to a target's buffered sequence: the tokens beyond it, where they agree
with it at every position that both hold (R273). -/
def continues (y : Stream) (from_ : Nat) (toks : List Word32) : List Word32 :=
  let have_ := y.lastToken :: y.draftBuf
  let agree := (upTo toks.length).all (fun i =>
    from_ + i < y.lc || (match have_[from_ + i - y.lc]? with
      | some t => decide (toks[i]? = some t)
      | none => true))
  if from_ ≤ y.lc + y.draftBuf.length && agree then toks.drop (y.lc + y.draftBuf.length + 1 - from_) else []
/-- A draft stream's commit: its tokens go to the target's buffer where they continue the target's sequence; a stale one is
discarded (R273). -/
def State.draftCommit (s : State) (v : VatId) (st : StreamId) (x : Stream) (toks : List Word32) : State :=
  if x.stale then s.setStream v st { x with stale := false, inPass := false }
  else
    let lc := x.lc + toks.length
    let s1 := (s.keep v st { x with lc := lc, lastToken := toks.getLastD 0, firstPass := false, inPass := false }).extend v st
    let s2 := match x.target with
      | some (tv, ts) =>
        (match s1.stream tv ts with
         | some y =>
           s1.setStream tv ts { y with draftBuf := (y.draftBuf ++ continues y x.lc (x.passToken :: toks)).take 3 }
         | none => s1)
      | none => s1
    if x.limit ≤ lc || x.atLimit then s2.endStream v st .length [] s.now else s2

/-- After a target's commit its buffer is emptied, and a draft stream that has run past it is set back (R273). -/
def State.rewind (s : State) (v : VatId) (st : StreamId) : State :=
  match s.stream v st with
  | none => s
  | some x =>
    let s1 := s.setStream v st { x with draftBuf := [] }
    match x.draft with
    | some (dv, ds) =>
      (match s1.stream dv ds with
       | some y =>
         if x.lc < y.lc then s1.keep dv ds { y with lc := x.lc, lastToken := x.lastToken, stale := y.stale || y.inPass }
         else if x.lc = y.lc then s1.setStream dv ds { y with lastToken := x.lastToken } else s1
       | none => s1)
    | none => s1

/-- The bytes of the KV records that a commit of so many positions mirrors (R301). -/
def State.mirrorBytes (s : State) (v : VatId) (n : Nat) : Nat := n * (s.kvStages v).length * s.kvHeads v * s.recordBytes v

/-- The KV records of a stream at positions from lo up to and not including hi, stage by stage and head by head, as they stand in cream or,
where the page is parked, in its skim slot (R138, R140, R301 KV). -/
def State.kvRecords (s : State) (v : VatId) (st : StreamId) (x : Stream) (lo hi : Nat) : List LinkRecord :=
  ((upTo hi).drop lo).flatMap (fun pos => (s.kvNumbered v).flatMap (fun k => (upTo (s.kvHeads v)).filterMap (fun h =>
    match x.pages[pos / 64]? with
    | some e =>
      if e.skimmed then
        some (.kv v st k.1 pos h (s.stackRead (s.skimAddr v e.number k.1 + (64 * h + pos % 64) * s.recordBytes v) (s.recordBytes v)))
      else (s.recordPlace v k.1 k.2 e.number (64 * h + pos % 64)).map (fun p =>
        .kv v st k.1 pos h (memBytes (s.core p.1).mem p.2 (s.recordBytes v)))
    | none => none)))
/-- A stream's records not yet mirrored, up to a committed length, and the COMMIT that covers them (R138, R301). -/
def State.mirrorUpTo (s : State) (v : VatId) (st : StreamId) (lc : Nat) (tokens : List Word32) (tick : Nat) : State :=
  match s.stream v st with
  | some x =>
    let rs := s.kvRecords v st x x.mirrored lc
    ((rs.foldl (fun u r => u.sendRecord 5 v r) s).setStream v st { x with mirrored := lc }).sendRecord 5 v
      (.commit v { stream := st, lc := lc, tokens := tokens, tick := tick, kvCount := rs.length })
  | none => s
/-- A commit of an output stream applied. -/
def State.applyCommit (s : State) (v : VatId) (st : StreamId) (x : Stream) (toks : List Word32) (tick : Nat) : State :=
  let e := commitEnd x toks
  let out_ := toks.take e.1
  let cust : Fin 4096 := ⟨s.rfld (.que x.queue) 26 15 % 4096, Nat.mod_lt _ (by decide)⟩
  let y := { x with lc := x.lc + toks.length, lastToken := out_.getLastD x.lastToken, newTokens := x.newTokens + e.1, firstPass := false,
                    handoffs := [], stageEntries := [], inPass := false }
  let mir := s.mirroring v
  let await := if mir then some (s.mirrorBytes v toks.length) else none
  let s1 := (s.keep v st y).charge cust e.1 tick
  let s2 := if mir then
      let s' := s1.mirrorUpTo v st y.lc out_ tick
      { s' with twin := { s'.twin with staging := s'.twin.staging + s.mirrorBytes v toks.length } }
    else s1
  match e.2 with
  | some status => s2.endStream v st status out_ tick await
  | none =>
    let s3 := s2.setStream v st { y with announced := true }
    (((s3.deliver x.queue (some (v, st)) y.lc await (completionOf v st { x with lc := y.lc } .ok false out_ tick)).extend v st).rewind
      v st).trySkim v st

/-- A module of a chain other than the first sends the commit reports of its head stage to the first module's ladle, over its chain-back
links (R307; log entry 92). -/
def State.sendReport (s : State) (v : VatId) (st : StreamId) (sampled : List Word32) (tick : Nat) : State :=
  match toFin? 64 (s.vfld v .linkChain 45 40) with
  | some w => s.postRouted (s.recordPacket 3 (BitVec.ofNat 16 (s.vfld v .linkChain 39 24)) v w (.report w st sampled tick))
  | none => s
/-- COMMIT_REPORT: the ladle applies the head stage's commit of a stream of the pail: Lc rises past the accepted drafts, pages follow,
tokens are charged and delivered, and the stream ends where R268 says. An early first pass that missed a hand-off is discarded
(R248), and while the mirror staging is full nothing is applied (R302). -/
def execCommitReport (v : VatId) (st : StreamId) (sampled : List Word32) (tick : Nat) (s0 : State) : Result :=
  if s0.chained v then .next (s0.sendReport v st sampled tick) else
  let s := s0.settleWindows v
  match s.stream v st with
  | none => .next s
  | some x =>
    match x.seat with
    | none => .next s
    | some (p, _) =>
      let pl := s.pail v p
      if !(s.vstate v = 2 || s.vstate v = 3) || !pl.commitsDue.contains st || sampled.length ≠ 1 + x.drafts.length
        || (s.vat v).handing
        || (s.mirroring v && decide (67108864 < s.twin.staging + s.mirrorBytes v (acceptedOf x.drafts sampled + 1))) then .next s
      else
        let s1 := s.setPail v p { pl with commitsDue := pl.commitsDue.filter (fun y => y ≠ st) }
        let missed := missedLayers x
        if !missed.isEmpty then
          .next (((s1.bumpR (.vat v .vatPrefillStat) 47 32 1).setStream v st
            { x with rewrites := missed, handoffs := x.handoffs.filter (fun h => !missed.contains h.1), stageEntries := [] }).vacate v st)
        else
          let toks := sampled.take (acceptedOf x.drafts sampled + 1)
          .next (if x.target.isSome then s1.draftCommit v st x toks else s1.applyCommit v st x toks tick)

end Sys2Proof.Machine
end

