-- ==== Sys2Proof/Machine/Move.lean ====
section
/-! DEFINITION. TMOV, SEND and the rotary unit (R79, R130, R131, R144, R145, R225, R226, R233, R234). -/

namespace Sys2Proof.Machine

/-! ## The rotary unit -/

/-- The vat's rotation: head dimension, MODE, PAIRS and the frequencies. -/
structure Rotary where
  dHead : Nat
  mode : Nat
  pairs : Nat
  freq : Nat → Nat

/-- The rotation of a vat. -/
def State.vatRotary (s : State) (v : VatId) : Rotary :=
  { dHead := 32 * s.vfld v .kvConf 26 23, mode := s.vfld v .kvRot 0 0, pairs := s.vfld v .kvRot 8 1
    freq := fun i => if h : i < 128 then s.vfld v (.kvRotFreq ⟨i, h⟩) 47 0 else 0 }
/-- The rotation of the vat of a core. -/
def State.rotary (s : State) (c : CoreId) : Rotary :=
  match s.vatOf c with
  | none => ⟨1, 0, 0, fun _ => 0⟩
  | some v => s.vatRotary v

/-- The partner of a head-local index, none where the element is not rotated (R131). -/
def Rotary.partner (r : Rotary) (d : Nat) : Option Nat :=
  if 2 * r.pairs ≤ d then none
  else if r.mode = 0 then some (if d % 2 = 0 then d + 1 else d - 1)
  else some (if d < r.pairs then d + r.pairs else d - r.pairs)
/-- The pair index and whether the element is the pair's first. -/
def Rotary.pairOf (r : Rotary) (d : Nat) : Nat × Bool :=
  if r.mode = 0 then (d / 2, d % 2 = 0) else (d % max 1 r.pairs, d < r.pairs)
/-- The element number of the partner of window element e. -/
def Rotary.partnerElem (r : Rotary) (e : Nat) : Option Nat :=
  let f := e / 4
  let d := f % max 1 r.dHead
  (r.partner d).map (fun p => 4 * (f - d + p) + e % 4)
/-- The range of n elements from e holds an element without its partner (R226). -/
def Rotary.splits (r : Rotary) (e n : Nat) : Bool :=
  (upTo n).any (fun i =>
    match r.partnerElem (e + i) with
    | some p => !(e ≤ p && p < e + n)
    | none => false)

/-- Element e of a collapsed window as it leaves the rotary unit (R130, R226). -/
def rotated (r : Rotary) (k : Core) (b : Bool) (e : Nat) : Word32 :=
  let word (x : Nat) := collapse32 (k.pair b x)
  match r.partnerElem e with
  | none => word e
  | some p =>
    let (i, first) := r.pairOf (e / 4 % max 1 r.dHead)
    let pos := (kget 0 k.posRegs ⟨e % 4, Nat.mod_lt _ (by decide)⟩).toNat
    let ph : BitVec 48 := BitVec.ofNat 48 (pos * r.freq i)
    if first then (rotate32 (word e) (word p) ph).1 else (rotate32 (word p) (word e) ph).2

/-- The window and first element of a range, when it lies in a collapsed window. -/
def Core.windowAt (k : Core) (a n : Nat) : Option (Bool × Nat) :=
  match k.reach a n with
  | some (.window b) => some (b, (a - windowBase b) / 4)
  | _ => none
/-- A rotated range is not a window's, or splits a pair (R226). -/
def badRot (s : State) (c : CoreId) (a n : Nat) : Bool :=
  match (s.core c).windowAt a n with
  | some (_, e) => (s.rotary c).splits e (n / 4)
  | none => true
/-- The bytes a move or send takes from its source, through the rotary unit when ROT = 1. -/
def State.sourceBytes (s : State) (c : CoreId) (rot : Bool) (a n : Nat) : List Byte :=
  match rot, (s.core c).windowAt a n with
  | true, some (b, e) => ofWords ((upTo (n / 4)).map (fun i => rotated (s.rotary c) (s.core c) b (e + i)))
  | _, _ => s.readLocal c a n

/-! ## TMOV -/

/-- Spaces that TMOV and SEND may name: not cream, not the control words (R189). -/
def movable (k : Core) (a n : Nat) : Bool :=
  match k.reach a n with
  | none => false
  | some .cream => false
  | some .ctrl => false
  | some _ => true

/-- TMOV: n bytes from s[SRC] to s[DST] (R225). The data move at issue; the move is in progress until TMOV_COMPLETE (log
entry 12). -/
def execTmov (t : Site) (f : FmtX) (s : State) : Result :=
  let h := s.thread t
  let k := s.core t.core
  let n := (h.sreg f.len).toNat
  let a := (h.sreg f.src).toNat
  let d := (h.sreg f.dst).toNat
  let rot := decide (f.rot = 1)
  issue s t (k.busyAt a n || k.busyAt d n || k.bufRead d n || k.heldByMove t.thread false a n || k.heldByMove t.thread true d n)
    true
    [(f.cls ≠ 0 || f.vc ≠ 0 || f.opw ≠ 0 || f.mc ≠ 0 || f.mdir ≠ 0 || f.mspan ≠ 0 || f.flow ≠ 0 || f.rsv ≠ 0, .illegal),
     (decide (n = 0), .empty),
     (decide (n % 4 ≠ 0) || decide (a % 4 ≠ 0) || decide (d % 4 ≠ 0) || !movable k a n || !movable k d n || overlap a n d n
        || (rot && badRot s t.core a n), .address)]
    (fun u =>
      if k.doubleAt a n then s.dataFault t
      else (u.readCounted t.core a n).modCore t.core (fun x =>
        let y := x.writeLocal d (s.sourceBytes t.core rot a n)
        { y with moves := y.moves ++ [{ thread := t.thread, src := a, dst := d, len := n }] }))

/-- A thread's first move taken out of a list. -/
def dropMove (t : Fin 16) : List Move → List Move
  | [] => []
  | m :: ms => if m.thread = t then ms else m :: dropMove t ms

/-- TMOV_COMPLETE: the thread's earliest TMOV in progress has written its destination and releases its holds (R225). -/
def execTmovComplete (t : Site) (s : State) : Result :=
  if s.regionRuns (regionOf t.core) then .next (s.modCore t.core (fun k => { k with moves := dropMove t.thread k.moves }))
  else .next s

/-! ## SEND -/

/-- The fields of a destination word (R191, R233). -/
def dstX (w : Word64) : Nat := fld w 8 0
def dstY (w : Word64) : Nat := fld w 17 9
def dstA (w : Word64) : Nat := fld w 39 18

/-- The unicast destination lies in the other half (R145). -/
def crossesHalf (c : CoreId) (w : Word64) : Bool :=
  match coreOf (dstX w) (dstY w) with
  | some d => halfOf (regionOf d) != halfOf (regionOf c)
  | none => false

/-- Every target lies in a region of the vat (R149). -/
def State.targetsInVat (s : State) (v : VatId) (xs : List (Option CoreId)) : Bool :=
  xs.all (fun x =>
    match x with
    | some c => s.holds v (regionOf c)
    | none => false)

/-- SEND's checks (R145, R154, R191, R226, R233). -/
def sendChecks (s : State) (t : Site) (f : FmtX) : List (Bool × Status) :=
  let h := s.thread t
  let k := s.core t.core
  let n := (h.sreg f.len).toNat
  let a := (h.sreg f.src).toNat
  let w := h.sreg f.dst
  let mc := decide (f.mc = 1)
  let dir : Fin 4 := ⟨f.mdir.toNat, f.mdir.isLt⟩
  [(decide (2 < f.cls.toNat) || f.opw = 3 || f.rsv ≠ 0 || (f.vc = 0 && f.flow = 0) || (f.vc = 1 && f.flow ≠ 0)
      || (!mc && (f.mdir ≠ 0 || f.mspan ≠ 0)), .illegal),
   (decide (n = 0), .empty),
   (decide (32772 ≤ n) || (!mc && crossesHalf t.core w && decide (4100 ≤ n)) || (f.cls = 2 && decide (68 ≤ n)), .oversize),
   (decide (n % 4 ≠ 0) || decide (dstA w % 64 ≠ 0) || decide (fld w 63 40 ≠ 0) || !movable k a n
      || (if mc then badMcast t.core dir f.mspan.toNat else (coreOf (dstX w) (dstY w)).isNone)
      || (f.rot = 1 && badRot s t.core a n), .address)]

/-- SEND: a message of n bytes into the mesh; a destination outside the vat, or in the other half when the vat holds a share of no working
seam port, stops the vat with VATFAULT and nothing is sent (R20, R145, R149, R154, R233, R234). -/
def execSend (t : Site) (f : FmtX) (s : State) : Result :=
  let h := s.thread t
  let k := s.core t.core
  let n := (h.sreg f.len).toNat
  let a := (h.sreg f.src).toNat
  let w := h.sreg f.dst
  let mc := decide (f.mc = 1)
  let dir : Fin 4 := ⟨f.mdir.toNat, f.mdir.isLt⟩
  let span := f.mspan.toNat
  let targets := if mc then mcastTargets t.core dir span else [coreOf (dstX w) (dstY w)]
  issue s t (k.busyAt a n || k.heldByMove t.thread false a n) true (sendChecks s t f)
    (fun u =>
      match s.vatOf t.core with
      | none => u
      | some v =>
        if !s.targetsInVat v targets || (!mc && crossesHalf t.core w && !s.crossesSeam v) then u.vatFault v t.core
        else if k.doubleAt a n then s.dataFault t
        else
          let dst := if mc then mcastEnd t.core dir span else
            match coreOf (dstX w) (dstY w) with
            | some c => defaultPos c
            | none => defaultPos t.core
          let m : Msg :=
            { vat := v, vc := if f.vc = 0 then 0 else 1, cls := f.cls.toNat, flow := f.flow.toNat, op := f.opw.toNat,
              src := t.core, dst := dst, addr := dstA w, mcast := mc, mdir := dir, mspan := if mc then span else 0,
              counted := true, thread := some t.thread }
          ((u.readCounted t.core a n).inject m (s.sourceBytes t.core (f.rot = 1) a n)).awaitAck t.core t.thread
            (if mc then span else 1))

end Sys2Proof.Machine
end

