-- ==== Sys2Proof/Machine/Prefill.lean ====
section
/-! DEFINITION. Prefill: groups, passes and hand-offs (R240 to R248, R269). -/

namespace Sys2Proof.Machine

/-! ## Presses (R241, R256) -/

/-- Press n works for a vat: assigned to it and not retired. -/
def State.pressOf (s : State) (v : VatId) (n : Fin 96) : Bool :=
  s.rfld (.glbPress n) 6 6 = 1 && s.rfld (.glbPress n) 5 0 = v.val && s.rfld (.glbPress n) 7 7 = 0
/-- A vat's presses. -/
def State.pressesOf (s : State) (v : VatId) : List (Fin 96) := (allFin 96).filter (s.pressOf v)
/-- BUSY of the presses assigned to a vat; one that has been retired during a pass is cleared with the others. -/
def State.setBusy (s : State) (v : VatId) (b : Nat) : State :=
  ((allFin 96).filter (fun n => s.rfld (.glbPress n) 6 6 = 1 && s.rfld (.glbPress n) 5 0 = v.val
    && (b = 0 || s.rfld (.glbPress n) 7 7 = 0))).foldl (fun u n => u.putR (.glbPress n) 8 8 b) s
/-- A press's record. -/
def State.press (s : State) (n : Fin 96) : Press := kget {} s.presses n
/-- The bytes of one MXFP4 tile of the array, 32,768 blocks of 17 B (R237). -/
def tileBytes : Nat := 557056
/-- The stack site of a press (R27, R30): four presses to a site. -/
def pressSite (n : Fin 96) : Fin 24 := ⟨n.val / 4, by have := n.isLt; omega⟩
/-- A pass of the vat may start: it is RUNNING, not paused, has presses with a usable copy, and no pass is in progress. -/
def State.mayPass (s : State) (v : VatId) : Bool :=
  s.vstate v = 2 && s.modState ≠ 6 && s.vfld v .vatPrefill 18 18 = 0 && (s.vat v).pass.isNone && !(s.vat v).handing
    && !(s.pressesOf v).isEmpty && (s.pressesOf v).all (fun n => (s.vat v).copied.contains n)
    && (match (s.vat v).ingot with
        | some g => g.pressCopy
        | none => false)

/-! ## Groups (R242 to R244) -/

/-- A waiting request is passed over: its customer is not eligible, its queue has weight 0, or its prompt is unread while the
queue's port is down (R269, R323). -/
def State.passedOver (s : State) (x : Stream) : Bool :=
  (x.prompt.isEmpty && s.host.down (s.portOf x.queue))
    || (x.target.isNone && (!s.eligible x.cust || s.rfld (.que x.queue) 14 7 = 0))
/-- Insertion by ascending fetch tick, then stream number. -/
def insertByFetch (p : StreamId × Stream) : List (StreamId × Stream) → List (StreamId × Stream)
  | [] => [p]
  | q :: qs => if p.2.fetchTick < q.2.fetchTick || (p.2.fetchTick = q.2.fetchTick && p.1.val < q.1.val) then p :: q :: qs
               else q :: insertByFetch p qs
/-- A stream stands between two chunks of its prompt, or before one still to come: no other request joins a group (R244). -/
def chunking (x : Stream) : Bool :=
  !x.ended && x.target.isNone && ((decide (x.phase = .awaitPrefill) && decide (0 < x.prefilled))
    || (decide (x.phase = .prefilling) && decide (x.prefilled + x.chunk + 1 < x.promptLen)))
/-- The waiting prefill requests of a vat in serving order. -/
def State.waitingPrefill (s : State) (v : VatId) : List StreamId :=
  ((((s.vat v).streams.filter (fun e => decide (e.2.phase = .awaitPrefill) && !e.2.ended && !s.passedOver e.2)).foldr
    insertByFetch []).map Prod.fst)

/-- A group being formed. -/
structure GroupRun where
  s : State
  members : List StreamId := []
  longest : Nat := 0
  stop : Bool := false

/-- A request joins: its reservation and limit are fixed, its pages cover its prompt, and it is charged what it prefills, once its
prompt has been read (R121, R122, R242, R269, R323). -/
def State.joinGroup (s : State) (v : VatId) (st : StreamId) (x : Stream) (lim g0 chunk : Nat) : State :=
  let y := { x with limit := lim, g0 := g0, reserved := pagesFor lim, chunk := chunk, handoffs := [], phase := .prefilling,
                    promptDue := x.prompt.isEmpty }
  let s1 := (s.keep v st y).addPages v st (entriesFor { y with lc := x.promptLen - 1 } - x.pages.length)
  if x.prompt.isEmpty then s1.askPrompt v st else if x.target.isSome then s1 else s1.charge x.cust chunk s.now

/-- One request of the serving order (R242, R244). -/
def GroupRun.consider (a : GroupRun) (v : VatId) (st : StreamId) : GroupRun :=
  match a.s.stream v st with
  | none => a
  | some x =>
    if a.stop then a
    else
      let cap := a.s.vfld v .vatPrefill 13 0
      let lim := a.s.limitOf v x
      let n := x.promptLen - 1
      if lim < x.promptLen then { a with s := a.s.endStream v st .length [] a.s.now }
      else
        match if x.reserved = 0 then a.s.findG0 v none (pagesFor lim) else some x.g0 with
        | none => { a with stop := true }
        | some g0 =>
          if cap < n || 0 < x.prefilled then
            if a.members.isEmpty && 0 < cap then
              { s := a.s.joinGroup v st x lim g0 (min cap (n - x.prefilled)), members := [st], longest := cap, stop := true }
            else { a with stop := true }
          else if 64 ≤ a.members.length || cap < (a.members.length + 1) * max a.longest n then { a with stop := true }
          else { a with s := a.s.joinGroup v st x lim g0 n, members := a.members ++ [st], longest := max a.longest n }

/-! ## Admission of a prefilled stream (R246, R247) -/

/-- A stream in prefill moves on: its last chunk admits it once the hand-offs up to layer L − EARLY are complete, and an earlier
chunk with all hand-offs complete makes it wait for the next (R240, R244, R247). -/
def State.admitPrefilled (s : State) (v : VatId) (st : StreamId) : State :=
  match s.stream v st with
  | none => s
  | some x =>
    let isIn (j : Nat) : Bool := x.handoffs.any (fun h => h.1 = j)
    let awaited := s.layers v - s.vfld v .vatPrefill 17 14
    if x.phase ≠ .prefilling || x.promptDue then s
    else if x.prefilled + x.chunk + 1 = x.promptLen then
      if (s.kvLayers v).all (fun j => awaited ≤ j || isIn j) then
        ((s.keep v st { x with phase := .decoding, lc := x.promptLen - 1, readyTick := s.now, idleSince := s.now,
                               idleTicks := s.idleWin v }).extend v st).trySkim v st
      else s
    else if (s.kvLayers v).all isIn then
      s.setStream v st { x with phase := .awaitPrefill, prefilled := x.prefilled + x.chunk, chunk := 0 }
    else s

/-- Reads of the presses for a pass: each press streams its slice but for the pinned tail from its site's stack, in messages of at most
4,096 B that count as requests of the vat (R245, R252); its array takes the first tile, and the second loads behind it (R237). -/
def State.startPresses (s : State) (v : VatId) : State :=
  (s.pressesOf v).foldl (fun u n =>
    let p := u.press n
    let streamed := p.slice - p.sram.length
    let u1 := { u with presses := kset u.presses n { p with tile := some 0, next := if tileBytes < p.slice then some 1 else none } }
    (upTo (ceilDiv streamed 4096)).foldl (fun w i =>
      (w.modVat v (fun x => { x with passTrips := x.passTrips + 1 })).tripOn
        { vat := v, bytes := min 4096 (streamed - 4096 * i), hops := [(.stack (pressSite n), false)], owner := .pass v }) u1) s
/-- The places of a stream's records at positions below a bound, with the bytes of each. -/
def State.recordsBelow (s : State) (v : VatId) (x : Stream) (n : Nat) : List (CoreId × Nat) :=
  (upTo n).flatMap (fun pos => match x.pages[pos / 64]? with
    | none => []
    | some e => (s.kvNumbered v).flatMap (fun k => (upTo (s.kvHeads v)).filterMap (fun h =>
        s.recordPlace v k.1 k.2 e.number (64 * h + pos % 64))))
/-- A later chunk reads the records of the earlier ones from cream, over the vat's rim port shares and the ring (R244); a double-bit error
there stops the vat as any reader's does (R24, R197). -/
def State.readEarlier (s : State) (v : VatId) (st : StreamId) : State :=
  match s.stream v st with
  | none => s
  | some x =>
    let n := s.recordBytes v
    (s.recordsBelow v x x.prefilled).foldl (fun u p =>
      let u1 := (u.readCounted p.1 p.2 n).modVat v (fun w => { w with passTrips := w.passTrips + 1 })
      let u2 := u1.tripOn { vat := v, bytes := n, hops := u1.wayOut v (halfOf (regionOf p.1)) (stopOfStack 0) [], owner := .pass v }
      if (u2.core p.1).doubleAt p.2 n then (u2.eccMet p.1).eccStopHolder p.1 else u2) s
/-- PREFILL_GROUP: the ladle forms a group from the waiting requests and the presses start a pass (R242 to R244). -/
def execPrefillGroup (v : VatId) (s0 : State) : Result :=
  let s := s0.settleWindows v
  if !s.mayPass v then .next s
  else
    let chunks := (s.vat v).streams.filter (fun e => chunking e.2)
    let wait := s.waitingPrefill v
    let cands := if chunks.isEmpty then wait else wait.filter (fun st => chunks.any (fun e => e.1 = st))
    let a := cands.foldl (fun b st => b.consider v st) ({ s := s } : GroupRun)
    if a.members.isEmpty then .next a.s
    else
      let s1 := (a.s.modVat v (fun w => { w with pass := some a.members, groups := w.groups ++ [a.members] })).setBusy v 1
      let s2 := a.members.foldl (fun u st => u.readEarlier v st) (s1.startPresses v)
      .next (a.members.foldl (fun u st => u.admitPrefilled v st) s2)

/-- PREFILL_PASS_DONE: the pass has computed its last layer: it is counted, and the next may start, unless the press copy has
lost granules: then PAUSE is set (R242, R255, R256). -/
def execPrefillPassDone (v : VatId) (s : State) : Result :=
  match (s.vat v).pass with
  | none => .next s
  | some sts =>
    if (s.vat v).passTrips ≠ 0 || sts.any (fun st => match s.stream v st with
        | some x => x.promptDue
        | none => false) then .next s
    else
      let s0 := { s with presses := s.presses.map (fun (p : Fin 96 × Press) =>
        if s.pressOf v p.1 then (p.1, { p.2 with tile := if p.2.slice = 0 then none else some ((p.2.slice - 1) / tileBytes), next := none })
        else p) }
      let s1 := ((s0.modVat v (fun w => { w with pass := none, pressStale := false })).bumpR (.vat v .vatPrefillStat) 31 0 1).setBusy v 0
      .next (if (s.vat v).pressStale then s1.putV v .vatPrefill 18 18 1 else s1)

/-! ## Hand-offs (R239, R246, R248) -/

/-- The record that the presses write for a head at a position: the key, rotated with the vat's frequency table (R130, R131), then the value,
each in blocks of the vat's KV format with the scale first (R89, R107, R114). The key and the value themselves are the ingot's layer
program at work, whose steps are not the module's to fix (log entry 17). -/
def State.pressRecord (s : State) (v : VatId) (prompt : List Word32) (start layer pos head : Nat) : List Byte :=
  let dig := match (s.vat v).ingot with
    | some g => g.digest
    | none => 0
  let r := s.vatRotary v
  let key (d : Nat) := Config.pressKey dig prompt start layer pos head d
  let rot (d : Nat) : Word32 := match r.partner d with
    | none => key d
    | some p =>
      let q := r.pairOf d
      let ph : BitVec 48 := BitVec.ofNat 48 (pos * r.freq q.1)
      if q.2 then (rotate32 (key d) (key p) ph).1 else (rotate32 (key p) (key d) ph).2
  let blocks (f : Nat → Word32) : List Byte := (upTo (s.vfld v .kvConf 26 23)).flatMap (fun b =>
    let p := packBlock (s.vfld v .kvConf 15 12 = 4) ((upTo 32).map (fun i => f (32 * b + i)))
    (p.1 :: p.2).map (fun x => BitVec.ofNat 8 x))
  blocks rot ++ blocks (fun d => Config.pressVal dig prompt start layer pos head d)
/-- The records of positions lo to lo + n − 1 written into a KV-bearing stage, at the stream's pages (R116, R239, R246). -/
def State.putRecords (s : State) (v : VatId) (x : Stream) (k : Nat) (sg : StageInfo) (layer lo n : Nat) : State :=
  (upTo n).foldl (fun u i =>
    let pos := lo + i
    match x.pages[pos / 64]? with
    | none => u
    | some e => (upTo (s.kvHeads v)).foldl (fun w h =>
        match w.recordPlace v k sg e.number (64 * h + pos % 64) with
        | none => w
        | some (c, a) => w.putKvAt c a (s.pressRecord v x.prompt lo layer pos h)) u) s

/-- The streams of the group that a stream was prefilled with whose hand-offs are still under way. -/
def State.handoffGroup (s : State) (v : VatId) (st : StreamId) : List StreamId :=
  let g := ((s.vat v).groups.reverse.find? (fun g => g.contains st)).getD [st]
  g.filter (fun i => match s.stream v i with
    | some y => !y.ended && y.firstPass && y.chunk ≠ 0 && decide (y.phase ≠ .awaitPrefill)
    | none => false)
/-- A stage's hand-off of one stream is complete: its records stand, and the ladle learns of it with a stamp. -/
def State.handOff (s : State) (v : VatId) (st : StreamId) (k : Nat) (sg : StageInfo) (j : Nat) : State :=
  match s.stream v st with
  | some x =>
    let s1 := (s.putRecords v x k sg j x.prefilled x.chunk).setStream v st
      { x with handoffs := x.handoffs ++ [(j, s.now)], rewrites := x.rewrites.filter (fun y => y ≠ j) }
    (s1.admitPrefilled v st).trySkim v st
  | none => s
/-- HANDOFF_COMPLETE: every write of a ring stage's records for every stream of a group has been acknowledged, over the vat's rim port
shares: the records stand, and the ladle learns of it with a stamp. A rewrite after a missed pass, of the stream that missed, clears that
stage's miss (R246 to R248). -/
def execHandoffComplete (v : VatId) (st : StreamId) (stage : Nat) (s : State) : Result :=
  match s.stream v st, layerIndex (s.ring v) stage, (s.ring v)[stage]? with
  | some x, some j, some sg =>
    let k := ((s.ring v).take stage).countP (fun y => y.kvStage.isSome)
    let again := x.rewrites.contains j
    let sts := if again then [st] else s.handoffGroup v st
    if !(s.vstate v = 2 || s.vstate v = 3) || sg.kvStage.isNone || x.ended || !x.firstPass || x.promptDue || x.chunk = 0
      || (!again && x.handoffs.any (fun h => h.1 = j)) || (x.phase = .awaitPrefill) || !s.hasRim v
      || sts.any (fun i => (s.stream v i).any Stream.promptDue) then .next s
    else .next (sts.foldl (fun u i => u.handOff v i k sg j) s)
  | _, _, _ => .next s

end Sys2Proof.Machine
end

