-- ==== Sys2Proof/Machine/Queues.lean ====
section
/-! DEFINITION. Queue pairs: doorbells, entries and their checks, prompts, held completions and the host ports (R265 to R267, R279,
R315, R320 to R329, R402). -/

namespace Sys2Proof.Machine

/-! ## Queue registers (R265, R266, R320, R400) -/

/-- QUE_n's fields as they are before a write. -/
def State.queEn (s : State) (n : QueueId) : Bool := s.rfld (.que n) 0 0 = 1
def State.queVat (s : State) (n : QueueId) : VatId := ⟨s.rfld (.que n) 6 1 % 64, Nat.mod_lt _ (by decide)⟩
/-- The ERR bit of a pair set. -/
def State.queErr (s : State) (n : QueueId) : State := s.putR (.queSq n 1) 17 17 1
/-- The pair's registers admit EN = 1 (R320). -/
def State.queGood (s : State) (n : QueueId) : Bool :=
  s.rfld (.queSq n 0) 11 0 = 0 && s.rfld (.queCq n 0) 11 0 = 0 && 15 ≤ s.rfld (.queSq n 1) 15 0 && 15 ≤ s.rfld (.queCq n 1) 15 0
    && s.activeOf n = 0
/-- The pair's pointers on a 0 to 1 change of EN. -/
def State.queStart (s : State) (n : QueueId) : State :=
  (((s.putR (.queSq n 1) 47 32 0).putR (.queCq n 1) 47 32 0).putR (.queCq n 1) 28 28 1).modQp n
    (fun q => { q with sqTail := 0, cqHead := 0 })

/-- A write of QUE_n: refused where it enables a pair that may not be; ignored where it would change VAT or CUST of a pair in use
(R265, R266, R320). lanes are the bits written. -/
def State.queWrite (s : State) (n : QueueId) (value : Word64) (lanes : Nat) : State :=
  let old := s.getReg (.que n)
  let new_ := writeWord old value (rwMask (.que n)) 0 lanes
  let turnsOn := !bitAt old 0 && bitAt new_ 0
  let moves := decide (fld old 6 1 ≠ fld new_ 6 1)
  if (bitAt old 0 || s.activeOf n ≠ 0) && (moves || decide (fld old 26 15 ≠ fld new_ 26 15)) then (if turnsOn then s.queErr n else s)
  else if turnsOn && !s.queGood n then s.queErr n
  else
    let s1 := s.setReg (.que n) new_
    let s2 := if moves then s1.setReg (.ladleQStat n) 0 else s1
    if turnsOn then s2.queStart n else s2

/-- QUE_ENABLE: a write of QUE_n with EN = 1 (R320). -/
def execQueEnable (n : QueueId) (value : Word64) (s : State) : Result :=
  if bitAt value 0 && s.hostReady then .next (s.queWrite n value (maskOf 63 0)) else .next s
/-- QUE_DISABLE: a write of QUE_n with EN = 0 stops further fetches and withdraws nothing (R266). -/
def execQueDisable (n : QueueId) (value : Word64) (s : State) : Result :=
  if !bitAt value 0 && s.hostReady then .next (s.queWrite n value (maskOf 63 0)) else .next s

/-! ## Doorbells (R321) -/

/-- Completions that answer CANCEL and SKIM have no stream to be written for; those at the front of the queue's held ones are
written as room comes. -/
def State.writeFront (s : State) (n : QueueId) : Nat → State
  | 0 => s
  | k + 1 =>
    match (s.qp n).held with
    | (none, c) :: rest =>
      if s.cqBlocked n then s
      else ((s.modQp n (fun q => { q with held := rest })).writeCompletion n none c).writeFront n k
    | _ => s

/-- SQ_DOORBELL: moves the tail, sets ERR, or is ignored (R321). -/
def execSqDoorbell (n : QueueId) (width32 : Bool) (value : Word32) (s : State) : Result :=
  if !width32 || !s.queEn n then .next s
  else if s.rfld (.queSq n 1) 15 0 + 1 ≤ value.toNat then .next (s.queErr n)
  else .next (s.modQp n (fun q => { q with sqTail := value.toNat }))

/-- CQ_DOORBELL: moves the head, sets ERR, or is ignored; it stays in service while the pair is active (R266, R321). -/
def execCqDoorbell (n : QueueId) (width32 : Bool) (value : Word32) (s : State) : Result :=
  if !width32 || (!s.queEn n && s.activeOf n = 0) then .next s
  else if s.rfld (.queCq n 1) 15 0 + 1 ≤ value.toNat then .next (s.queErr n)
  else
    let s1 := s.modQp n (fun q => { q with cqHead := value.toNat })
    .next (s1.writeFront n (s1.qp n).held.length)

/-! ## Fetching (R267, R402) -/

/-- A fetched entry is a CANCEL or SKIM. -/
def isControl (e : Fetched) : Bool := leAt e.bytes 0 1 = 2 || leAt e.bytes 0 1 = 3
/-- The lowest free stream number of a vat. -/
def State.freeStreamId (s : State) (v : VatId) : Option StreamId :=
  (allFin 1024).find? (fun i => (s.stream v i).isNone && !(s.fetchedNums v).contains i)
/-- The ladle may fetch for a pair: it is enabled, its vat is LOADED, RUNNING, QUIESCING or QUIESCED and has a stream number free,
its port is up, an entry is submitted, and fewer than 16 are ahead. -/
def State.mayFetch (s : State) (n : QueueId) : Bool :=
  let v := s.queVat n
  s.queEn n && s.vstate v ∈ [1, 2, 3, 4] && !s.host.down (s.portOf n) && s.rfld (.queSq n 1) 47 32 ≠ (s.qp n).sqTail
    && s.fetchedOf n < 16 && (s.freeStreamId v).isSome
/-- HEAD past one entry. -/
def State.advanceHead (s : State) (n : QueueId) : State :=
  s.putR (.queSq n 1) 47 32 ((s.rfld (.queSq n 1) 47 32 + 1) % (s.rfld (.queSq n 1) 15 0 + 1))

/-- ENTRY_FETCH: a submission entry arrives; a request takes the lowest free stream number of its vat (R267). -/
def execEntryFetch (n : QueueId) (entry : List Byte) (s : State) : Result :=
  if !s.mayFetch n then .next s
  else
    let bs := (entry ++ List.replicate 64 0).take 64
    let e : Fetched := { bytes := bs, tick := s.now }
    let e1 := if isControl e then e else { e with num := s.freeStreamId (s.queVat n) }
    .next ((((s.advanceHead n).modQp n (fun q => { q with fetched := q.fetched ++ [e1] })).refreshQue n).refreshStreams (s.queVat n))

/-- ENTRY_READ_FAILED: HEAD passes the entry, and one completion tells the host (R402). -/
def execEntryReadFailed (n : QueueId) (s : State) : Result :=
  if !s.mayFetch n then .next s
  else .next ((s.advanceHead n).deliver n none 0 none (controlCompletion (s.queVat n) 0 .address none s.now))

/-- A fetched entry taken off. -/
def State.takeFetched (s : State) (n : QueueId) : State := (s.modQp n (fun q => { q with fetched := q.fetched.drop 1 })).refreshQue n
/-- The ladle acts on fetched entries in these states. -/
def State.ladleActs (s : State) (n : QueueId) : Bool := s.vstate (s.queVat n) ∈ [1, 2, 3, 4]

/-! ## Requests (R279, R322 to R324) -/

/-- The unfinished stream of a queue with a CMD_ID. -/
def State.streamByCmd (s : State) (v : VatId) (n : QueueId) (cmd : BitVec 16) : Option (StreamId × Stream) :=
  (s.vat v).streams.find? (fun e => e.2.queue = n && e.2.target.isNone && !e.2.ended && e.2.cmdId = cmd)

/-- The sampling fields lie in range: TOP_K 1 to 256, INV_TEMP not negative (−0.0 excepted), infinite or NaN, TOP_P above +0.0 and
at most 1.0 (R279). -/
def samplingOk (topK invTemp topP : Nat) : Bool :=
  1 ≤ topK && topK ≤ 256 && (invTemp < 0x7F800000 || invTemp = 0x80000000) && 0 < topP && topP ≤ 0x3F800000

/-- A variant number names the base weights or a valid variant of the vat (R275). -/
def State.variantOk (s : State) (v : VatId) (n : Nat) : Bool :=
  n = 0xFFFF ||
  match toFin? 4096 n with
  | some i => s.rfld (.ladleVariant i 0) 0 0 = 1 && s.rfld (.ladleVariant i 0) 6 1 = v.val
  | none => false

/-- The limit that a request names: 0, or above KV_LIMIT, means KV_LIMIT (R121, R322). -/
def State.requestLimit (s : State) (v : VatId) (n : Nat) : Nat :=
  let lim := s.vfld v .kvLimit 16 0
  if n = 0 ∨ lim < n then lim else n

/-- The status of a request that fails a check of R323, the first in order. -/
def State.requestFault (s : State) (v : VatId) (n : QueueId) (bs : List Byte) : Option Status :=
  let draft := leAt bs 1 1 % 2
  let stops := leAt bs 7 1
  let dv := leAt bs 6 1
  let len := leAt bs 16 4
  if leAt bs 0 1 ≠ 1 || 2 ≤ leAt bs 1 1 || 4 < stops || leAt bs 30 2 ≠ 0 || (draft = 0 && dv ≠ 0)
    || leAt bs (48 + 4 * stops) (16 - 4 * stops) ≠ 0 || (s.streamByCmd v n (BitVec.ofNat 16 (leAt bs 2 2))).isSome then some .badentry
  else if !s.variantOk v (leAt bs 4 2) || !samplingOk (leAt bs 28 2) (leAt bs 32 4) (leAt bs 36 4) then some .variant
  else if draft = 1 && (match toFin? 64 dv with
      | some d => decide (d = v) || s.vstate d ≠ 2
      | none => true) then some .badentry
  else if len = 0 || s.requestLimit v (leAt bs 24 4) < len then some .length
  else none

/-- The stream that a request makes. Its limit is held to KV_LIMIT when it is admitted (R121). -/
def State.requestStream (s : State) (v : VatId) (n : QueueId) (e : Fetched) : Stream :=
  let bs := e.bytes
  let len := leAt bs 16 4
  { queue := n, cmdId := BitVec.ofNat 16 (leAt bs 2 2), cust := ⟨s.rfld (.que n) 26 15 % 4096, Nat.mod_lt _ (by decide)⟩,
    phase := if len = 1 then .awaitPrompt else .awaitPrefill, promptLen := len, promptDue := decide (len = 1),
    limit := if leAt bs 24 4 = 0 then 65536 else min (leAt bs 24 4) 65536, entry := bs, variant := BitVec.ofNat 16 (leAt bs 4 2), topK := leAt bs 28 2,
    invTemp := w32 (leAt bs 32 4), topP := w32 (leAt bs 36 4), seed := w64 (leAt bs 40 8), maxNew := leAt bs 20 4,
    stops := (upTo (leAt bs 7 1)).map (fun i => w32 (leAt bs (48 + 4 * i) 4)), fetchTick := e.tick, readyTick := e.tick,
    idleSince := s.now, idleTicks := s.idleWin v }

/-- The draft stream of a target, made in its draft vat with that vat's base weights and greedy sampling; without a free number, or
where the prompt exceeds that vat's limit, the target goes without (R273, R324). -/
def State.makeDraft (s : State) (v : VatId) (st : StreamId) (x : Stream) (dv : VatId) : State :=
  let lim := min x.limit (s.vfld dv .kvLimit 16 0)
  match s.freeStreamId dv with
  | none => s
  | some ds =>
    if lim < x.promptLen then s
    else
      let d := { x with variant := 0xFFFF, invTemp := 0, stops := [], maxNew := 0, entry := [], target := some (v, st) }
      let s0 := match s.stream v st with
        | some y => s.setStream v st { y with draft := some (dv, ds) }
        | none => s
      let s1 := (s0.keep dv ds d).refreshStreams dv
      if d.promptDue then s1.askPrompt dv ds else s1

/-- REQUEST: the ladle checks the fetched request in R323's order, and makes it a stream or ends it with one completion. -/
def execRequest (n : QueueId) (s : State) : Result :=
  match (s.qp n).fetched with
  | [] => .next s
  | e :: _ =>
    let v := s.queVat n
    if isControl e || !s.ladleActs n then .next s
    else
      let s1 := s.takeFetched n
      match s.requestFault v n e.bytes, e.num.or (s1.freeStreamId v) with
      | none, some st =>
        let x := s.requestStream v n e
        let s2 := (((s1.keep v st x).useVariant x.variant true).refreshStreams v).refreshQue n
        let s3 := if x.promptDue then s2.askPrompt v st else s2
        if leAt e.bytes 1 1 % 2 = 1 then
          .next (match toFin? 64 (leAt e.bytes 6 1) with
            | some dv => s3.makeDraft v st x dv
            | none => s3)
        else .next s3
      | f, _ =>
        .next ((s1.refreshStreams v).deliver n none 0 none
          { cmdId := BitVec.ofNat 16 (leAt e.bytes 2 2), status := f.getD .badentry, first := true, fin := true, vat := v,
            commitTick := s.now, fetchTick := e.tick })

/-- The entry of a CANCEL or SKIM has its zero fields zero (R322, R325). -/
def controlZero (bs : List Byte) : Bool := leAt bs 1 1 = 0 && leAt bs 6 58 = 0

/-- CANCEL: ends its target with CANCELLED, and completes the entry (R325). -/
def execCancel (n : QueueId) (s : State) : Result :=
  match (s.qp n).fetched with
  | [] => .next s
  | e :: _ =>
    let v := s.queVat n
    let cmd := BitVec.ofNat 16 (leAt e.bytes 2 2)
    if leAt e.bytes 0 1 ≠ 2 || !s.ladleActs n then .next s
    else
      let s1 := s.takeFetched n
      if !controlZero e.bytes then .next (s1.deliver n none 0 none (controlCompletion v cmd .badentry none s.now))
      else
        match s.streamByCmd v n (BitVec.ofNat 16 (leAt e.bytes 4 2)) with
        | none => .next (s1.deliver n none 0 none (controlCompletion v cmd .nostream none s.now))
        | some (st, _) =>
          .next ((s1.endStream v st .cancelled [] s.now).deliver n none 0 none (controlCompletion v cmd .ok (some st) s.now))

/-- SKIM: asks for its target to be skimmed; the entry completes when the copy does, at once where the stream is already parked, or
with NOSTREAM or NOSPACE. A second skim of one target waits for the first (R140, R325). -/
def execSkim (n : QueueId) (s : State) : Result :=
  match (s.qp n).fetched with
  | [] => .next s
  | e :: _ =>
    let v := s.queVat n
    let cmd := BitVec.ofNat 16 (leAt e.bytes 2 2)
    if leAt e.bytes 0 1 ≠ 3 || !s.ladleActs n then .next s
    else
      let s1 := s.takeFetched n
      if !controlZero e.bytes then .next (s1.deliver n none 0 none (controlCompletion v cmd .badentry none s.now))
      else
        match s.streamByCmd v n (BitVec.ofNat 16 (leAt e.bytes 4 2)) with
        | none => .next (s1.deliver n none 0 none (controlCompletion v cmd .nostream none s.now))
        | some (st, x) =>
          if x.skimAsked.isSome then .next s
          else if x.skimmed then .next (s1.deliver n none 0 none (controlCompletion v cmd .ok (some st) s.now))
          else .next ((s1.setStream v st { x with skimAsked := some (some cmd) }).trySkim v st)

/-! ## Prompts (R240, R323) -/

/-- PROMPT_READ: a prompt read completes, once all its messages have come through the host port (R319). A read that fails ends the stream with ADDRESS, a token id at or above the vocabulary's
size with BADENTRY; else a one-token stream is ready at Lc = 0, and a stream of a prefill group is charged what it prefills (R240,
R269, R323). While the queue's port is down the read waits (R328). -/
def execPromptRead (v : VatId) (st : StreamId) (ok : Bool) (tokens : List Word32) (s : State) : Result :=
  match s.stream v st with
  | none => .next s
  | some x =>
    if !x.promptDue || x.promptTrips ≠ 0 || x.ended || s.host.down (s.portOf x.queue) || (ok && tokens.length ≠ x.promptLen) then .next s
    else if !ok then .next (s.endStream v st .address [] s.now)
    else
      let vocab := match (s.vat v).ingot with
        | some g => g.vocab
        | none => 0
      if tokens.any (fun t => vocab ≤ t.toNat) then .next (s.endStream v st .badentry [] s.now)
      else
        let y := { x with promptDue := false, prompt := tokens, lastToken := tokens.getLastD 0 }
        if x.phase = .awaitPrompt then
          .next ((s.setStream v st { y with phase := .decoding, lc := 0, readyTick := s.now, idleSince := s.now,
                                            idleTicks := s.idleWin v }).trySkim v st)
        else
          let s1 := s.setStream v st y
          .next ((if x.target.isSome then s1 else s1.charge x.cust x.chunk s.now).admitPrefilled v st)

/-! ## Held completions and coalescing (R327, R329) -/

/-- Held completions written in order, up to and including the first of a stream, while there is room. -/
def State.writeHeld (s : State) (n : QueueId) (v : VatId) (st : StreamId) : Nat → State
  | 0 => s
  | k + 1 =>
    match (s.qp n).held with
    | [] => s
    | (who, c) :: rest =>
      if s.cqBlocked n then s
      else
        let s1 := (s.modQp n (fun q => { q with held := rest })).writeCompletion n who c
        if who == some (v, st) then s1.writeFront n k else s1.writeHeld n v st k

/-- HELD_COMPLETION_WRITE: a stream's held completion is written once its queue has room, after those held before it (R327). -/
def execHeldCompletionWrite (v : VatId) (st : StreamId) (s : State) : Result :=
  match s.stream v st with
  | none => .next s
  | some x =>
    if (s.qp x.queue).held.any (fun e => e.1 == some (v, st)) then
      .next (s.writeHeld x.queue v st (s.qp x.queue).held.length)
    else .next s

/-- COALESCE_WINDOW_END: a window that is over closes; completions that wait for its end are signalled now and open the next (R329). -/
def execCoalesceWindowEnd (n : QueueId) (s : State) : Result :=
  match (s.qp n).window with
  | none => .next s
  | some (t, k) =>
    if !windowOver t k s.now then .next s
    else if (s.qp n).waiting then
      .next ((s.modQp n (fun q =>
        { q with waiting := false, window := some (s.now, s.winTicks (1000 * s.rfld (.queCq n 1) 63 56)) })).msix
          (s.portOf n) (s.rfld (.queCq n 1) 26 16))
    else .next (s.modQp n (fun q => { q with window := none }))

/-! ## Host ports (R315, R328) -/

/-- A host port's link marked down or up. -/
def State.setPort (s : State) (p : HostPort) (down : Bool) : State :=
  match p with
  | .east => { s with host := { s.host with eastDown := down } }
  | .west => { s with host := { s.host with westDown := down } }
/-- A port's number in a health event. -/
def portIndex (p : HostPort) : Nat := match p with | .east => 0 | .west => 1

/-- PORT_DOWN: a host port's link goes down; its queues hold (R327, R328). -/
def execPortDown (p : HostPort) (s : State) : Result :=
  if s.host.down p then .next s else .next ((s.setPort p true).logEvent 0x0070 0 6 (portIndex p))

/-- PORT_UP: a port's link comes up while the wafer's rails are on; each vector pending is sent once (R315, R328, R340). -/
def execPortUp (p : HostPort) (s : State) : Result :=
  if !s.host.down p || s.modState < 2 || s.modState = 7 then .next s
  else
    let s1 := s.setPort p false
    let mine := s.host.msixPending.filter (fun x => x.1 = p)
    let s2 := { s1 with host := { s1.host with msixPending := s1.host.msixPending.filter (fun x => x.1 ≠ p) } }
    let s3 := mine.foldl (fun u x => u.send (.msix p x.2)) s2
    .next (((s3.queues.map Prod.fst).foldl (fun u n =>
      if u.portOf n = p then u.writeFront n (u.qp n).held.length else u) s3).logEvent 0x0071 0 6 (portIndex p))

end Sys2Proof.Machine
end

