-- ==== Sys2Proof/Machine/Shares.lean ====
section
/-! DEFINITION. Shared ports: the deficit round robin of R160 and R161, and the seam's check of whole messages (R17 to R21, R159). -/

namespace Sys2Proof.Machine

/-! ## Weights (R160, R295) -/

/-- The weight of a participant: a vat, or 64 for a link's forwarded packets (R295). -/
def State.seatWeight (s : State) (p : SharedPort) (who : Fin 65) : Nat :=
  match toFin? 64 who.val with
  | some v => s.weight p v
  | none =>
    match p with
    | .link l => s.rfld (.linkCtrl l) 10 3
    | _ => 0

/-! ## Service (R160) -/

/-- The bytes that a parcel costs: 64 for each flit. -/
def Parcel.cost : Parcel → Nat
  | .message fs => 64 * fs.length
  | .packet p => 64 * ceilDiv p.length.toNat 64
  | .trip t => 64 * ceilDiv t.bytes 64

/-- The seam port of a shared port's number. -/
def seamOf (p : Fin 176) : Option (Fin 16) := if 128 ≤ p.val then toFin? 16 (p.val - 128) else none
/-- The half that a seam port's direction leads to: true is southward. -/
def towardHalf (dir : Bool) : Half := if dir then .south else .north

/-- The port can take a parcel on now: the seam's receiving side holds two messages (R159); a link sends a head cell only with
credits for the whole packet and room in its replay buffer (R290, R292); a message takes on only a port whose staging has room (R161); a host port
that is down holds what it has (R315, R328). -/
def State.canCarry (s : State) (p : SharedPort) (dir : Bool) (x : Parcel) : Bool :=
  match p, x with
  | .mesh q, .message _ =>
    (match seamOf q with
     | some n => !(kget {} s.seams n).closed && (kget [] (kget {} s.seams n).arrived (towardHalf dir)).length < 2
     | none => true)
  | .link l, .packet k =>
    s.linkUp l && !s.linkRetiredBit l && (s.link l).framesUsed + packetFrames k ≤ 2048 && (s.link l).replay.length < 4096
      && ((s.link l).replay.map packetFrames).foldl (· + ·) 0 + packetFrames k ≤ 8192
  | .pcie h, .trip _ => !s.host.down h
  | _, .trip t =>
    (match t.hops with
     | h :: _ => s.stagedBytes h.1 h.2 t.vat + t.bytes ≤ 8192
     | [] => true)
  | _, _ => true

/-- A parcel sent: across the seam to its receiving side, out of a rim port to its rim block (R20), onto a link, or towards the next port
of its way. -/
def State.carry (s : State) (p : SharedPort) (dir : Bool) (x : Parcel) : State :=
  match p, x with
  | .mesh q, .message fs =>
    (match seamOf q with
     | some n =>
       let sp := kget {} s.seams n
       let there := kget [] sp.arrived (towardHalf dir) ++ [fs]
       { s with seams := kset s.seams n { sp with arrived := kset sp.arrived (towardHalf dir) there } }
     | none => s)
  | .link l, .packet k => s.transmit l k
  | _, .trip t => s.tripOn t
  | _, _ => s

/-- A participant served while its deficit lasts and the port can take its parcels on: what is left, and the deficit. -/
def State.serveSeat (s : State) (p : SharedPort) (dir : Bool) : Nat → List Parcel → State × List Parcel × Nat
  | d, [] => (s, [], d)
  | d, x :: xs =>
    if x.cost ≤ d && s.canCarry p dir x then (s.carry p dir x).serveSeat p dir (d - x.cost) xs else (s, x :: xs, d)

/-- One participant's turn in a round. -/
def State.turn (s : State) (p : SharedPort) (dir : Bool) (who : Fin 65) : State :=
  let q := s.sched p dir
  let w := s.seatWeight p who
  let back := kget [] q.waiting who
  let put (u : State) (d : Nat) (xs : List Parcel) : State :=
    let r := u.sched p dir
    { u with scheds := kset u.scheds (p, dir) { deficit := kset r.deficit who d, waiting := kset r.waiting who xs } }
  if w = 0 || back.isEmpty then put s 0 back
  else
    let r := s.serveSeat p dir (kget 0 q.deficit who + w * 512) back
    put r.1 (if r.2.1.isEmpty then 0 else r.2.2) r.2.1

/-- Packets moved from a dead link go ahead of everything a link has queued (R291). -/
def State.sendAhead (s : State) (l : LinkId) : List Packet → State
  | [] => s
  | k :: ks =>
    if s.canCarry (.link l) true (.packet k) then
      ((s.modLink l (fun x => { x with ahead := ks })).putOnWire l k).sendAhead l ks
    else s

/-- A link that works and has sent no packet in a round sends idle cells up to its next control cell (R286; log entry 94). -/
def State.idleCells (s : State) (l : LinkId) (before : BitVec 16) : State :=
  if s.linkUp l && !s.linkRetiredBit l && (s.link l).lseqOut = before then (s.sendControl l).modLink l (fun k => { k with cells := 0 }) else s
/-- SERVE_ROUND: one deficit round robin round over vats 0 to 63, then a link's forwarded packets (R160, R295). -/
def execServeRound (p : SharedPort) (dir : Bool) (s : State) : Result :=
  let serve (u : State) : State := (allFin 65).foldl (fun w who => w.turn p dir who) u
  match p with
  | .link l =>
    if dir then .next ((serve (s.sendAhead l (s.link l).ahead)).idleCells l (s.link l).lseqOut) else .next (serve s)
  | _ => .next (serve s)

/-! ## The seam's check (R18, R19) -/

/-- A seam port accepts the class, and a message of so many bytes (R18). -/
def seamCarries (cls bytes : Nat) : Bool :=
  if cls = 1 then bytes ≤ 4096 else (cls = 2 || cls = 3 || cls = 4) && bytes ≤ 64
/-- A vat holds a region in a half. -/
def State.inHalf (s : State) (v : VatId) (h : Half) : Bool := (s.regionsOf v).any (fun r => halfOf r == h)
/-- Some vat is running on the wafer: one in RUNNING or QUIESCING, whose threads issue. Whether QUIESCING counts is not said (DESIGN CHOICE,
log entry 87). -/
def State.anyRunning (s : State) : Bool := (allFin 64).any (fun v => s.vstate v = 2 || s.vstate v = 3)

/-- R19's checks on a whole message, in order: it is accepted when none fails. -/
def State.seamPasses (s : State) (n : Fin 16) (fs : List Flit) : Bool :=
  match fs with
  | [] => false
  | f :: _ =>
    let bytes := (fs.map (fun x => x.bytes)).foldl (· + ·) 0
    seamCarries f.cls bytes && !f.mcast && !(f.cls = 3 && leAt f.data 0 1 = 3)
      && (f.cls ≠ 4 || !s.anyRunning)
      && s.exists_ f.vat && s.inHalf f.vat .north && s.inHalf f.vat .south && s.weight (.mesh (seamShare n)) f.vat ≠ 0
      && (match toFin? 512 f.dstPx, toFin? 384 f.dstPy with
          | some x, some y => s.holds f.vat (regionAt ⟨x, y⟩)
          | _, _ => false)

/-- SEAM_MESSAGE_CHECK: the receiving port checks the message that has arrived whole, and forwards it on VC1 or refuses it (R19,
R159). -/
def execSeamMessageCheck (n : Fin 16) (toHalf : Half) (s : State) : Result :=
  let sp := kget {} s.seams n
  match kget [] sp.arrived toHalf with
  | fs :: rest =>
    let s1 := { s with seams := kset s.seams n { sp with arrived := kset sp.arrived toHalf rest } }
    if s.seamPasses n fs then
      let r := s.seamRouter n toHalf
      .next (fs.foldl (fun u f => u.enqueue r.1 r.2 { f with vc := 1, flow := 0, seam := some n }) s1)
    else
      match fs with
      | f :: _ => .next (s1.seamRefuse n (s.seamRouter n toHalf).1 f)
      | [] => .next s1
  | [] => .next s

end Sys2Proof.Machine
end

