-- ==== Sys2Proof/Machine/Steps.lean ====
section
/-! DEFINITION. Temper steps: a region's own step, lent steps, and the lending they come from (R180, R348, R350). -/

namespace Sys2Proof.Machine

/-- REQ_STEP, FW_MAX and the thermal limit of a region (R350); the limit starts at 15 (R374). -/
def State.reqStep (s : State) (r : Region) : Nat := s.rfld (.pwrRegion r) 3 0
def State.fwMax (s : State) (r : Region) : Nat := s.rfld (.pwrRegion r) 7 4
def State.thermLimit (s : State) (r : Region) : Nat := kget 15 s.therm.limit r
/-- The firmware temper table (R350). -/
def temperTable (duty : Nat) : Nat := if duty ≤ 38 then 15 else if duty ≤ 48 then 14 else if duty ≤ 57 then 13 else 12
/-- FW_MAX as DUTY gives it, under the caps of R370 and R372. -/
def State.deriveFwMax (s : State) (r : Region) : State :=
  let m := temperTable (s.rfld (.pwrRegion r) 13 8)
  let m1 := if s.therm.droopCap.contains r then min m 12 else m
  s.putR (.pwrRegion r) 7 4 (if s.therm.capped.contains r then min m1 8 else m1)

/-- The regions that have lent a region a step. -/
def State.lenders (s : State) (r : Region) : List Region := kget [] s.therm.lent r
/-- The step of a region without lending (R350). -/
def State.ownStep (s : State) (r : Region) : Nat := min (s.reqStep r) (min (s.fwMax r) (s.thermLimit r))
/-- The step toward which a region glides: its own raised by lent steps up to FW_MAX; throttling takes precedence (R180, R350, R375). -/
def State.stepTarget (s : State) (r : Region) : Nat :=
  min (min (s.ownStep r + (s.lenders r).length) (s.fwMax r)) (s.thermLimit r)

/-- A region's lenders replaced, with PWR_REGION_n.LENT. -/
def State.setLenders (s : State) (r : Region) (ls : List Region) : State :=
  { s with therm := { s.therm with lent := if ls.isEmpty then kdel s.therm.lent r else kset s.therm.lent r ls } }.putR
    (.pwrRegion r) 23 23 (if ls.isEmpty then 0 else 1)
/-- The steps that a region has lent are taken back (R180). -/
def State.takeBack (s : State) (lender : Region) : State :=
  ((s.therm.lent.filter (fun p => p.2.contains lender)).map Prod.fst).foldl
    (fun u b => u.setLenders b ((u.lenders b).filter (fun x => x ≠ lender))) s

/-- The cores of a region that are marked idle. -/
def State.markedCores (s : State) (r : Region) : Nat :=
  (s.cores.filter (fun p => regionOf p.1 = r && p.2.idleMark)).length
/-- At least half of a region's 992 cores are marked. -/
def State.halfIdle (s : State) (r : Region) : Bool := 496 ≤ s.markedCores r
/-- A core's idle mark clears; a region whose marked share falls below half takes back what it lent (R180). -/
def State.clearMark (s : State) (c : CoreId) : State :=
  if (s.core c).idleMark then
    let s1 := s.modCore c (fun k => { k with idleMark := false })
    if s1.halfIdle (regionOf c) then s1 else s1.takeBack (regionOf c)
  else s

/-- The regions of a vat whose marked share is below half take back what they lent (R180). -/
def State.checkLoans (s : State) (v : VatId) : State :=
  ((s.regionsOf v).filter (fun r => !s.halfIdle r)).foldl (fun u r => u.takeBack r) s

/-- Two regions are neighbours in the grid of 12 rows and 16 columns (R12). -/
def nextTo (a b : Region) : Bool :=
  (a.val / 16 = b.val / 16 && (a.val + 1 = b.val || b.val + 1 = a.val)) || a.val + 16 = b.val || b.val + 16 = a.val

end Sys2Proof.Machine
end

