-- ==== Sys2Proof/Machine/Sync.lean ====
section
/-! DEFINITION. Counter stores, mirrors and power lending (R168 to R180). -/

namespace Sys2Proof.Machine

/-! ## Counter stores (R169, R170, R174, R177) -/

/-- A NOTIFY job behind those of a store: changes of a signal counter while a NOTIFY of it is being sent are coalesced into the one that
waits (R174). -/
def addNotify (js : List NotifyJob) (j : NotifyJob) : List NotifyJob :=
  let same (x : NotifyJob) : Bool := !j.barrier && x.vat == j.vat && x.vid == j.vid
  match js with
  | [] => [j]
  | h :: rest => if rest.any same then h :: rest.map (fun x => if same x then { x with value := j.value } else x) else h :: rest ++ [j]
/-- A counter's NOTIFY given to its store: one flit for each row of its rectangle, in ascending LY (R174). -/
def State.notify (s : State) (h : Half) (col : Fin 16) (v : VatId) (i : Vid) (gen value : Nat) : State :=
  let w := s.vreg v (.ctr i 1)
  if !bitAt w 36 then s
  else
    let j : NotifyJob := { vat := v, vid := i, gen := gen, value := value, barrier := s.isBarrier v i,
                           rows := (upTo (fld w 35 27 + 1)).drop (fld w 26 18) }
    { s with notifies := kset s.notifies (h, col) (addNotify (kget [] s.notifies (h, col)) j) }

/-- The flit at the head of a store's queue, and the store's state without it. -/
def State.storeHead (s : State) (h : Half) (col : Fin 16) : Option (Flit × State) :=
  match (s.router (s.storeRouter h col)).storeQ with
  | f :: fs => some (f, s.modRouter (s.storeRouter h col) (fun k => { k with storeQ := fs }))
  | [] => none

/-- The virtual id that a SIGNAL flit names. -/
def flitVid (f : Flit) : Vid := ⟨leAt f.data 2 2 % 4096, Nat.mod_lt _ (by decide)⟩
/-- The entry of a store that a SIGNAL flit names belongs to its tagged vat, which knows it under the flit's id (R171, R172). -/
def State.ownsEntry (s : State) (h : Half) (col : Fin 16) (f : Flit) : Bool :=
  let place : Half × Nat := (h, 1024 * col.val + leAt f.data 4 2)
  s.syncMap f.vat (flitVid f) == some place && kfind s.ctrVat place == some f.vat
/-- The counter that a SIGNAL flit changes: the one whose registers hold the entry it names. -/
def State.counterOf (s : State) (f : Flit) : Vid := s.sameEntry f.vat (flitVid f)

/-- STORE_ADD: the store applies the ADD at the head of its queue, modulo 2^32, and notifies. One whose vat tag differs from the
counter's vat is discarded and stops the vat it names; an ADD to a barrier stops the sending vat (R169 to R174). -/
def execStoreAdd (h : Half) (col : Fin 16) (s : State) : Result :=
  match s.storeHead h col with
  | none => .next s
  | some (f, s1) =>
    let i := s.counterOf f
    if leAt f.data 0 1 ≠ 1 || !s.regionRuns (regionAt (s.storeRouter h col)) then .next s
    else if !s.ownsEntry h col f then .next (s1.discardFlit f.vat (s.placeOf (s.storeRouter h col)))
    else if s.isBarrier f.vat i then .next (s1.vatFault f.vat (s.placeOf (s.storeRouter h col)))
    else
      let n := (s.vfld f.vat (.ctr i 0) 31 0 + leAt f.data 6 2) % 2 ^ 32
      .next ((s1.putV f.vat (.ctr i 0) 31 0 n).notify h col f.vat i 0 n)

/-- The ADD 1 that a completion relays, in either half; a vat without a share of a working seam port is caught at injection (R20, R177,
R179). -/
def State.relay (s : State) (h : Half) (col : Fin 16) (v : VatId) (r : Vid) : State :=
  match s.syncMap v r with
  | some (h2, ix) =>
    if h2 ≠ h && !s.crossesSeam v then s.vatFault v (s.placeOf (s.storeRouter h col))
    else
      s.injectAt (s.storeRouter h col)
        { vat := v, cls := 3, src := storeSite h col, dst := s.storeRouter h2 (storeCol ix), toPort := true }
        (signalBytes 1 0 r (ix % 1024) 1 0)
  | none => s
/-- A barrier's round completes: a becomes 0, GEN flips, the round is counted, the mirrors are notified, and a relay adds 1
(R177). -/
def State.completeRound (s : State) (h : Half) (col : Fin 16) (v : VatId) (i : Vid) : State :=
  let w := s.vreg v (.ctr i 0)
  let gen := 1 - fld w 33 33
  let c := s.ctr v i
  let s1 := (s.putV v (.ctr i 0) 15 0 0).putV v (.ctr i 0) 33 33 gen
  let s2 := { s1 with ctrs := kset s1.ctrs (v, i) { c with rounds := c.rounds + 1 } }
  let s3 := s2.notify h col v i gen ((c.rounds + 1) % 2 ^ 32)
  if bitAt w 50 then s3.relay h col v ⟨fld w 62 51 % 4096, Nat.mod_lt _ (by decide)⟩ else s3

/-- STORE_ARRIVE: the store counts the ARRIVE at the head of its queue, completing the round at the n-th; one of another
generation is discarded, counted, and stops its vat (R177). -/
def execStoreArrive (h : Half) (col : Fin 16) (s : State) : Result :=
  match s.storeHead h col with
  | none => .next s
  | some (f, s1) =>
    let i := s.counterOf f
    if leAt f.data 0 1 ≠ 2 || !s.regionRuns (regionAt (s.storeRouter h col)) then .next s
    else if !s.ownsEntry h col f then .next (s1.discardFlit f.vat (s.placeOf (s.storeRouter h col)))
    else if !s.isBarrier f.vat i then .next (s1.vatFault f.vat (s.placeOf (s.storeRouter h col)))
    else
      let w := s.vreg f.vat (.ctr i 0)
      if leAt f.data 1 1 % 2 ≠ fld w 33 33 then .next (s1.discardFlit f.vat (s.placeOf (s.storeRouter h col)))
      else if fld w 15 0 + 1 = fld w 49 34 then .next (s1.completeRound h col f.vat i)
      else .next (s1.putV f.vat (.ctr i 0) 15 0 (fld w 15 0 + 1))

/-! ## Mirrors (R173, R175, R177) -/

/-- A thread's status after a NOTIFY of an id with a value and cleared arrived bits. -/
def releasedBy (i : Vid) (value : Word32) : ThreadStatus → Bool
  | .waitV j t => decide (i = j) && waitMet value t
  | .waitG j => decide (i = j)
  | .heldArrive j => decide (i = j)
  | _ => false

/-- Threads whose wait a NOTIFY ends become ready. -/
def Core.release (k : Core) (i : Vid) (value : Word32) : Core :=
  { k with threads := k.threads.map (fun p =>
      if releasedBy i value p.2.status then (p.1, { p.2 with status := .ready }) else p) }

/-- NOTIFY: the mirror takes VALUE and GEN and clears its arrived bits; waits that it satisfies and arrivals held for the next
round are released (R175, R177). -/
def execNotify (c : CoreId) (s : State) : Result :=
  match (s.core c).notifyQ with
  | [] => .next s
  | f :: fs =>
    let i := flitVid f
    let value : Word32 := w32 (leAt f.data 8 4)
    let m : Mirror := { value := value, gen := decide (leAt f.data 1 1 % 2 = 1), arrived := 0 }
    let freed := (s.core c).threads.any (fun p => releasedBy i value p.2.status)
    let s1 := s.modCore c (fun k => ({ k with notifyQ := fs, mirrors := kset k.mirrors i m }).release i value)
    .next (if freed then s1.clearMark c else s1)

/-! ## Power lending (R180) -/

/-- A thread is idle, or has waited for n ticks or more by tick b. -/
def Thread.restful (h : Thread) (n b : Nat) : Bool :=
  match h.status with
  | .idle => true
  | .waitV _ _ => windowOver h.waitSince n b
  | .waitG _ => windowOver h.waitSince n b
  | _ => false

/-- CORE_IDLE_MARK: a core whose threads are all idle, or have waited for THRESH, is marked; THRESH 0 disables marking. -/
def execCoreIdleMark (c : CoreId) (s : State) : Result :=
  match s.vatOf c with
  | none => .next s
  | some v =>
    let th := s.vfld v .vatLend 15 0
    let b := s.tickOf (halfOf (regionOf c))
    if th ≠ 0 && s.regionRuns (regionOf c) && (s.core c).threads.all (fun p => p.2.restful (s.winTicks (10 * th)) b)
    then .next (s.modCore c (fun k => { k with idleMark := true }))
    else .next s

/-- A region may lend a step to another: half of its cores are marked, it is powered and has not lent one yet, the other is its neighbour in
the same half, belongs to a vat that accepts, has fewer than two lent steps and stays within FW_MAX (R180, R350). -/
def State.mayLend (s : State) (lender borrower : Region) : Bool :=
  s.halfIdle lender && s.regionOn lender && nextTo lender borrower && halfOf lender == halfOf borrower
    && !(s.therm.lent.any (fun p => p.2.contains lender))
    && (match s.ownerOf borrower with
        | some v => s.vfld v .vatLend 16 16 = 1
        | none => false)
    && (s.lenders borrower).length < 2 && s.regionOn borrower
    && s.ownStep borrower + (s.lenders borrower).length + 1 ≤ s.fwMax borrower

/-- LEND_STEP: a lending region raises a neighbour by one temper step, to which it then glides (R180, R348). -/
def execLendStep (lender borrower : Region) (s : State) : Result :=
  if s.mayLend lender borrower then .next (s.setLenders borrower (s.lenders borrower ++ [lender])) else .next s

end Sys2Proof.Machine
end

