-- ==== Sys2Proof/Machine/Regions.lean ====
section
/-! DEFINITION. Regions: waking and switching off (R346, R347, R349), zeroing (R263), retirement (R17, R28, R168, R367, R368) and the
write of VAT_REGIONS (R257, R264, R281). -/

namespace Sys2Proof.Machine

/-! ## Wake sequencers (R346) -/

/-- A half's wake queue. -/
def State.wakes (s : State) (h : Half) : List (Nat × Region) := match h with | .north => s.pow.wakeNorth | .south => s.pow.wakeSouth
/-- A half's number in the registers. -/
def halfIndex (h : Half) : Fin 2 := match h with | .north => 0 | .south => 1
/-- A half's wake queue replaced, with PWR_WAKE_h.QUEUED. -/
def State.setWakes (s : State) (h : Half) (q : List (Nat × Region)) : State :=
  { s with pow := (match h with
      | .north => { s.pow with wakeNorth := q }
      | .south => { s.pow with wakeSouth := q }) }.putR (.pwrWake (halfIndex h)) 7 0 q.length
/-- A request in the queue: among those of one tick in ascending region number. -/
def insertWake (t : Nat) (r : Region) : List (Nat × Region) → List (Nat × Region)
  | [] => [(t, r)]
  | q :: qs => if q.1 = t ∧ r.val < q.2.val then (t, r) :: q :: qs else q :: insertWake t r qs
/-- A region is queued. -/
def State.queuedWake (s : State) (r : Region) : Bool := (s.wakes (halfOf r)).any (fun q => q.2 = r)

/-- A request to wake a region (R346, R347); a retired region is never woken. -/
def State.requestWake (s : State) (r : Region) : State :=
  if s.modState = 6 || s.regionRetired r then s
  else if s.pow.powering.contains r then { s with pow := { s.pow with offPending := s.pow.offPending.filter (fun x => x ≠ r) } }
  else if s.regionOn r || s.queuedWake r || s.pow.aborted.contains r || s.pow.relocking.contains r then s
  else (s.setWakes (halfOf r) (insertWake s.now r (s.wakes (halfOf r)))).putR (.pwrRegion r) 15 15 1

/-- THERM_WARM's bit of a region. -/
def State.setWarm (s : State) (r : Region) (b : Nat) : State :=
  s.putR (.thermWarm ⟨r.val / 64, by have := r.isLt; omega⟩) (r.val % 64) (r.val % 64) b
/-- A router whose region loses power holds no flits any more; its tables stay. -/
def Router.emptied (k : Router) : Router :=
  { routes := k.routes, routeShadow := k.routeShadow, slots := k.slots, slotShadow := k.slotShadow, dead := k.dead, fenced := k.fenced,
    bypassing := k.bypassing }
/-- A router's link towards a router without power starts afresh. -/
def Router.cutOff (k : Router) (d : Fin 4) : Router :=
  { k with wire := kdel k.wire d, replay := kdel k.replay d, lseqOut := kdel k.lseqOut d, lseqIn := kdel k.lseqIn d,
           replayReq := kdel k.replayReq d, fails := kdel k.fails d,
           used := k.used.filter (fun p => p.1.1 ≠ outOf d), returning := k.returning.filter (fun p => p.1.1 ≠ outOf d) }
/-- The routers when a region loses power; what its rim ports and seam port have gathered in part is gone as well. -/
def State.cutRouters (s : State) (r : Region) : State :=
  { s with routers := s.routers.map (fun p =>
      if regionAt p.1 = r then (p.1, p.2.emptied)
      else (p.1, ((allFin 4).filter (fun d => (neighbour p.1 d).any (fun q => regionAt q = r))).foldl Router.cutOff p.2))
           rims := s.rims.map (fun p => if (s.rimRouter p.1).any (fun q => regionAt q = r) then (p.1, { p.2 with gather := [] }) else p)
           seams := s.seams.map (fun p =>
      if r.val = 80 + p.1.val then (p.1, { p.2 with gather := kdel p.2.gather .south })
      else if r.val = 96 + p.1.val then (p.1, { p.2 with gather := kdel p.2.gather .north }) else p) }
/-- A region without power: it keeps its cream (R25), runs no clock, and lends and borrows nothing. -/
def State.powerDown (s : State) (r : Region) : State :=
  let s1 := (((s.cutRouters r).putR (.pwrRegion r) 14 14 0).putR (.thermRegion r) 19 16 0).setWarm r 0
  ({ s1 with pow := { s1.pow with relocking := s1.pow.relocking.filter (fun x => x ≠ r) } }.takeBack r).setLenders r []
/-- A request to switch a region off (R346). -/
def State.requestOff (s : State) (r : Region) : State :=
  if s.queuedWake r then (s.setWakes (halfOf r) ((s.wakes (halfOf r)).filter (fun q => q.2 ≠ r))).putR (.pwrRegion r) 15 15 0
  else if s.pow.powering.contains r then
    if s.pow.offPending.contains r then s else { s with pow := { s.pow with offPending := s.pow.offPending ++ [r] } }
  else if s.pow.aborted.contains r then
    { s with pow := { s.pow with aborted := s.pow.aborted.filter (fun x => x ≠ r) } }.putR (.pwrRegion r) 15 15 0
  else s.powerDown r

/-- A region's clock relocks at step 10 before it runs: it has been reset, or woken without its cream (R349). -/
def State.wantRelock (s : State) (r : Region) : State :=
  if s.pow.needRelock.contains r then s else { s with pow := { s.pow with needRelock := s.pow.needRelock ++ [r] } }

/-! ## Zeroing (R58, R67, R77, R263) -/

/-- A core without anything that a vat's run leaves in it: registers, queues, mirrors and buffers; instruction store, control words,
memory and quarantined tags stay. -/
def Core.idled (k : Core) : Core :=
  { imem := k.imem, mem := k.mem, eccSingle := k.eccSingle, eccDouble := k.eccDouble, eccLog := k.eccLog, fixLog := k.fixLog, wb := k.wb, gate := k.gate,
    layerTag := k.layerTag, quarantine := k.quarantine, spmWrap := k.spmWrap, tileAWrap := k.tileAWrap, tileBWrap := k.tileBWrap, eccFatal := k.eccFatal,
    eccCorrected := k.eccCorrected }
/-- Zeros with valid check bits from lo up to and not including hi. -/
def Core.zeroed (k : Core) (lo hi : Nat) : Core := { k.healed lo (hi - lo) with mem := memClear k.mem lo hi }
/-- Every core of a region that the state lists, changed. -/
def State.mapRegion (s : State) (r : Region) (f : Core → Core) : State :=
  { s with cores := s.cores.map (fun p => if regionOf p.1 = r then (p.1, f p.2) else p) }
/-- All cream and scratchpad of a region zeroed, and what a run left in its cores gone. -/
def State.zeroRegion (s : State) (r : Region) : State := s.mapRegion r (fun k => (k.idled).zeroed 0 0x300000)

/-! ## VAT_REGIONS (R257, R264, R281) -/

/-- The regions that a word of VAT_REGIONS names. -/
def namedIn (w : Fin 3) (value : Word64) : List Region := (allFin 192).filter (fun r => r.val / 64 = w.val && bitAt value (r.val % 64))
/-- A write of VAT_REGIONS: ignored, with CMD_REFUSED, in another state than FREE, LOADED or QUIESCED, and where it names a region
that another vat holds or a retired one; else new regions are woken, their KV areas zero (R118), and removed ones
zeroed and switched off. -/
def State.writeRegions (s : State) (v : VatId) (w : Fin 3) (value : Word64) : State :=
  let old := s.vreg v (.vatRegions w)
  let add := (namedIn w value).filter (fun r => !s.holds v r)
  let drop := (namedIn w old).filter (fun r => !(namedIn w value).contains r)
  if !(s.vstate v ∈ [0, 1, 4]) || add.any (fun r => s.regionRetired r || (s.ownerOf r).isSome) then s.refuseCmd v
  else
    let s1 := (drop.foldl (fun u r => u.zeroRegion r) s).setReg (.vat v (.vatRegions w)) value
    add.foldl (fun u r => (u.mapRegion r (fun k => k.zeroed (512 * k.wb) 0x180000)).requestWake r)
      (drop.foldl (fun u r => u.requestOff r) s1)

/-- VAT_REGIONS_WRITE: a 64-bit write of a word of VAT_REGIONS. -/
def execVatRegionsWrite (v : VatId) (w : Fin 3) (value : Word64) (s : State) : Result :=
  if s.hostReady then .next (s.writeRegions v w value) else .next s

/-! ## Retirement (R17, R28, R168, R367, R368) -/

/-- The fault reports of hardware stops of every vat that a condition picks. -/
def State.stopVats (s : State) (p : VatId → Bool) (st : Status) (c : CoreId) : State :=
  ((allFin 64).filter p).foldl (fun u v => u.hardStop v st c) s

/-- The counter store of a region: region row 3 holds the north stores, row 8 the south ones. -/
def storeOf (r : Region) : Option (Half × Fin 16) :=
  let col : Fin 16 := ⟨r.val % 16, Nat.mod_lt _ (by decide)⟩
  if r.val / 16 = 3 then some (.north, col) else if r.val / 16 = 8 then some (.south, col) else none
/-- Some counter of a vat lies in a store. -/
def State.usesStore (s : State) (v : VatId) (h : Half) (col : Fin 16) : Bool :=
  s.regs.any (fun p =>
    match p.1 with
    | .vat u (.syncMap i) => u = v && (match s.syncMap v i with
        | some (g, ix) => g == h && storeCol ix = col
        | none => false)
    | _ => false)
/-- A counter store retired: vats with counters in it stop. -/
def State.retireStore (s : State) (h : Half) (col : Fin 16) : State :=
  if s.pow.storesRetired.contains (h, col) then s
  else
    { s with pow := { s.pow with storesRetired := s.pow.storesRetired ++ [(h, col)] } }.stopVats
      (fun v => s.usesStore v h col) .vatfault (storeSite h col)

/-- The rim ports of a region (R28). -/
def rimPortsOf (r : Region) : List (Fin 128) :=
  (allFin 128).filter (fun p =>
    if p.val < 16 then r.val = p.val else if p.val < 32 then r.val = 176 + (p.val - 16)
    else if p.val < 80 then r.val = 16 * ((p.val - 32) / 4) else r.val = 16 * ((p.val - 80) / 4) + 15)
/-- Rim ports retired: a vat that loses its only share stops. -/
def State.retireRim (s : State) (r : Region) : State :=
  let ps := (rimPortsOf r).filter (fun p => !s.pow.rimPortsRetired.contains p)
  let s1 := { s with pow := { s.pow with rimPortsRetired := s.pow.rimPortsRetired ++ ps } }
  if ps.isEmpty then s else s1.stopVats (fun v => s.hasRim v && !s1.hasRim v) .vatfault (cornerOf r)

/-- A seam port retired. -/
def State.retireSeam (s : State) (n : Fin 16) : State :=
  if s.rfld (.meshSeam n) 32 32 = 1 then s else (s.putR (.meshSeam n) 32 32 1).logEvent 0x0021 0 4 n
/-- The seam port at a region: regions 80 to 95 and 96 to 111. -/
def seamOfRegion (r : Region) : Option (Fin 16) := if r.val / 16 = 5 ∨ r.val / 16 = 6 then toFin? 16 (r.val % 16) else none

/-- PWR_MAP as it stands: entries and retired regions. -/
def State.refreshMap (s : State) : State :=
  (s.putR .pwrMap 16 4 ((allFin 6144).countP (fun i => s.rfld (.pwrDefect i) 21 21 = 1))).putR .pwrMap 24 17
    ((allFin 192).countP s.regionRetired)
/-- The region that a defect entry lies in. -/
def State.defectIn (s : State) (i : Fin 6144) (r : Region) : Bool :=
  s.rfld (.pwrDefect i) 21 21 = 1 && s.rfld (.pwrDefect i) 17 9 / 32 * 16 + s.rfld (.pwrDefect i) 8 0 / 32 = r.val
/-- A retired region leaves the defect table (R344). -/
def State.dropDefects (s : State) (r : Region) : State :=
  ((allFin 6144).filter (fun i => s.defectIn i r)).foldl (fun u i => u.setReg (.pwrDefect i) 0) s

/-- The unit bits of a region in its converter group: region 2g or 2g + 1 (R369). -/
def groupOf (r : Region) : Group := ⟨r.val / 2, by have := r.isLt; omega⟩

/-- What else the retirement of a region reaches: counters, seam and rim ports (R368). -/
def State.retireParts (s : State) (r : Region) : State :=
  let s1 := match storeOf r with
    | some (h, c) => s.retireStore h c
    | none => s
  let s2 := match seamOfRegion r with
    | some n => s1.retireSeam n
    | none => s1
  s2.retireRim r
/-- RETIRED set, with the map. RETIRE_PENDING is sticky: only a module start clears it (R384). -/
def State.markRetired (s : State) (r : Region) : State :=
  (((s.putR (.pwrRegion r) 16 16 1).dropDefects r).refreshMap).retireParts r
/-- A region that belongs to no vat any more. -/
def State.disown (s : State) (r : Region) : State :=
  match s.ownerOf r with
  | some v => s.putV v (.vatRegions ⟨r.val / 64, by have := r.isLt; omega⟩) (r.val % 64) (r.val % 64) 0
  | none => s

/-- A region retired in service: fenced and switched off, its vat stopped by hardware stop; it belongs to no vat, and the vats with routes into
it are quiesced (R257, R367, R368). -/
def State.retireRegion (s : State) (r : Region) : State :=
  if s.regionRetired r then s
  else
    let s1 := ((s.fenceRegion r).stopHolder r .vatfault).mapRegion r Core.halt
    ((((((s1.disown r).requestOff r).powerDown r).markRetired r).putR .pwrMap 1 1 1).logEvent 0x0012 (statusCode .vatfault) 1 r).quiesceRouted
      (s.ownerOf r) (fun q => regionAt q = r)

/-- REGION_RETIRED: a region with 33 defects, or one whose retirement is due, is retired (R367). -/
def execRegionRetired (r : Region) (s : State) : Result :=
  if s.rfld (.pwrRegion r) 22 17 < 33 then .next s else .next (s.retireRegion r)

/-- The pending retirements among some regions carried out (R372). -/
def State.retirePending (s : State) (rs : List Region) : State :=
  (rs.filter (fun r => s.rfld (.pwrGroup (groupOf r)) (7 + r.val % 2) (7 + r.val % 2) = 1)).foldl (fun u r => u.retireRegion r) s

/-- RETIRE_NOW: a write of 1 to PWR_GROUP_g.RETIRE_NOW retires every pending region of the group (R372, R384). -/
def execRetireNow (g : Group) (s : State) : Result :=
  if s.modState < 2 || s.modState = 7 then .next s
  else .next (s.retirePending ((allFin 192).filter (fun r => groupOf r = g)))

/-! ## The sequencers' steps (R346, R349, R359) -/

/-- REGION_POWER_UP_START: a half's sequencer starts the power-up of the region at the head of its queue. -/
def execRegionPowerUpStart (h : Half) (s : State) : Result :=
  match s.wakes h with
  | [] => .next s
  | (_, r) :: q =>
    if s.modState < 2 || 6 ≤ s.modState then .next s
    else
      let s1 := (s.setWakes h q).bumpR (.pwrWake (halfIndex h)) 31 8 1
      .next { s1 with pow := { s1.pow with powering := s1.pow.powering ++ [r] } }

/-- REGION_POWER_UP_END: the rail has reached 90%: a pending switch-off acts; else a region that was reset relocks, and one that
kept its cream runs at step 0. -/
def execRegionPowerUpEnd (r : Region) (s : State) : Result :=
  if !s.pow.powering.contains r then .next s
  else
    let s1 := { s with pow := { s.pow with powering := s.pow.powering.filter (fun x => x ≠ r),
                                           offPending := s.pow.offPending.filter (fun x => x ≠ r),
                                           abortedOnce := s.pow.abortedOnce.filter (fun x => x ≠ r) } }.putR (.pwrRegion r) 15 15 0
    if s.pow.offPending.contains r then .next s1
    else if s.pow.needRelock.contains r then
      .next { s1 with pow := { s1.pow with needRelock := s1.pow.needRelock.filter (fun x => x ≠ r),
                                           relocking := s1.pow.relocking ++ [r] } }
    else .next ((s1.putR (.pwrRegion r) 14 14 1).putR (.thermRegion r) 19 16 0)

/-- RELOCK: the region's oscillator has locked at step 10, and its clock runs (R349). -/
def execRelock (r : Region) (s : State) : Result :=
  if !s.pow.relocking.contains r then .next s
  else .next ((({ s with pow := { s.pow with relocking := s.pow.relocking.filter (fun x => x ≠ r) } }).putR (.pwrRegion r) 14 14
    1).putR (.thermRegion r) 19 16 10)

/-- INRUSH_ABORT: a power-up whose rail has not reached 90% in time, beside a shorted region, aborts; a second abort leaves the
region off, to be confirmed at the next start, which is cold (R373). -/
def execInrushAbort (r : Region) (s : State) : Result :=
  if !s.pow.powering.contains r || s.rfld (.pwrGroup (groupOf r)) (6 - r.val % 2) (6 - r.val % 2) = 0 then .next s
  else
    let s1 := { s with pow := { s.pow with powering := s.pow.powering.filter (fun x => x ≠ r) } }
    let s2 := (s1.bumpR (.pwrWake (halfIndex (halfOf r))) 47 32 1)
    if s.pow.offPending.contains r then
      .next ({ s2 with pow := { s2.pow with offPending := s2.pow.offPending.filter (fun x => x ≠ r) } }.putR (.pwrRegion r) 15 15 0)
    else if s.pow.abortedOnce.contains r then
      let s3 := { s2 with pow := { s2.pow with abortedOnce := s2.pow.abortedOnce.filter (fun x => x ≠ r),
                                               confirm := s2.pow.confirm ++ [r] } }
      .next (((s3.putR (.pwrRegion r) 15 15 0).putR .pwrState 4 4 1).logEvent 0x0054 0 1 r)
    else
      .next { s2 with pow := { s2.pow with aborted := s2.pow.aborted ++ [r], abortedOnce := s2.pow.abortedOnce ++ [r] } }

/-- WAKE_RETRY: an aborted power-up returns to the head of its queue (R346). -/
def execWakeRetry (r : Region) (s : State) : Result :=
  if !s.pow.aborted.contains r || s.modState = 6 then .next s
  else
    let s1 := { s with pow := { s.pow with aborted := s.pow.aborted.filter (fun x => x ≠ r) } }
    .next (s1.setWakes (halfOf r) ((s.now, r) :: s.wakes (halfOf r)))

/-- THROTTLED as it stands: the thermal limit holds the region below its firmware step; a change is logged (R332, R375, R382). -/
def State.refreshThrottled (s : State) (r : Region) : State :=
  let b := if s.thermLimit r < min (s.reqStep r) (s.fwMax r) then 1 else 0
  if s.rfld (.thermRegion r) 20 20 = b then s
  else (s.putR (.thermRegion r) 20 20 b).logEvent (if b = 1 then 0x0060 else 0x0061) 0 1 r

/-- TEMPER_STEP: a region moves by one step toward its target (R348, R350). -/
def execTemperStep (r : Region) (s : State) : Result :=
  if !s.regionOn r then .next s
  else
    let x := s.stepOf r
    let t := s.stepTarget r
    .next (s.putR (.thermRegion r) 19 16 (if x < t then x + 1 else if t < x then x - 1 else x))

end Sys2Proof.Machine
end

