-- ==== Sys2Proof/Machine/VatCmd.lean ====
section
/-! DEFINITION. Vat commands and stops: START, QUIESCE, RESUME, RESET, RELEASE (R259 to R263, R347, R378), fault reports, the stop
at a tick and the clearing of the fault record (R199, R200, R361, R362). -/

namespace Sys2Proof.Machine

/-! ## Faults and stops (R199, R200, R361) -/

/-- The reports of a vat that are on their way, each with its place among all reports. -/
def State.reportsOf (s : State) (v : VatId) : List (FaultReport × Nat) :=
  (s.reports.zip (upTo s.reports.length)).filter (fun p => p.1.vat = v)
/-- Word 0 of the fault record for a first report (R200). -/
def recordWord (r : FaultReport) : Word64 :=
  w64 (statusCode r.status + r.lx % 512 * 2 ^ 8 + r.ly % 512 * 2 ^ 17
    + (if r.source then r.thread % 16 * 2 ^ 26 + r.pc % 2048 * 2 ^ 30 + 2 ^ 41 else 0) + 2 ^ 42)
/-- The states that a stop reaches. -/
def State.stoppable (s : State) (v : VatId) : Bool := s.vstate v ∈ [2, 3, 4]

/-- FAULT_REPORT: a report arrives at the vat's record, which keeps the first and counts the others; the vat stops at the next tick
(R199, R200). -/
def execFaultReport (v : VatId) (i : Nat) (s : State) : Result :=
  match (s.reportsOf v)[i]? with
  | none => .next s
  | some (r, k) =>
    let first := s.vfld v (.vatFault 0) 7 0 = 0
    let s1 := { s with reports := s.reports.eraseIdx k }
    let s2 := if first then (s1.setReg (.vat v (.vatFault 0)) (recordWord r)).setReg (.vat v (.vatFault 1)) (w64 (r.tick % 2 ^ 48))
              else s1.bumpR (.vat v (.vatFault 0)) 57 42 1
    .next (if s.stoppable v then
        s2.modVat v (fun w => { w with stopWait := true, hwStop := if first then r.hardware else w.hwStop })
      else s2)

/-- The targets of a vat's draft streams go on without drafts (R273). -/
def State.orphanTargets (s : State) (v : VatId) : State :=
  (s.vat v).streams.foldl (fun u e =>
    match e.2.target with
    | some (tv, ts) =>
      (match u.stream tv ts with
       | some y => u.setStream tv ts { y with draft := none, draftBuf := [] }
       | none => u)
    | none => u) s
/-- This module is the standby of a vat in a pair (R300). -/
def State.standby (s : State) (v : VatId) : Bool :=
  (s.rfld .twinStatus 2 0 = 1 || (s.rfld .twinStatus 2 0 = 2 && !(s.vat v).unsynced)) && s.rfld .twinOwner v v = 0
/-- The mirrors of a vat dropped. -/
def State.dropMirror (s : State) (v : VatId) : State :=
  { s with twin := { s.twin with recs := s.twin.recs.filter (fun p => p.1.1 ≠ v), fills := s.twin.fills.filter (fun p => p.1.1 ≠ v),
                                 ladles := kdel s.twin.ladles v, lastFill := kdel s.twin.lastFill v,
                                 ends := s.twin.ends.filter (fun e => e.1 ≠ v) } }

/-- Every region of a vat stops issuing. -/
def State.haltVat (s : State) (v : VatId) : State := (s.mapCores v Core.halt).modVat v (fun w => { w with live := false })
/-- A stop that is due acts: every region stops issuing, the gate makes no edge, the host is interrupted; a hardware stop of a
mirrored active vat commits HANDOVER, one of a standby vat ends its mirroring, and where a core is being retired the warden commits
RESET (R199, R361, R362, R365). -/
def State.stopNow (s : State) (v : VatId) : State :=
  if !(s.vat v).stopDue then s
  else
    let s1 := s.modVat v (fun w => { w with stopDue := false, stopWait := false, slipDue := none })
    if !s.stoppable v then s1
    else
      let hw := (s.vat v).hwStop
      let s2 := ((((s1.haltVat v).orphanTargets v).modVat v (fun w =>
        { w with gateOff := true, handing := w.handing || (hw && s.mirroring v),
                 cmd := if w.reload && !(hw && s.mirroring v) then 4 else w.cmd })).putV v .vatStatus 2 0 5).cause (.vat v .vatIrq) 16
      let s3 := if hw && s.standby v then s2.dropMirror v else s2
      s3.logEvent 0x00A0 (s.vfld v (.vatFault 0) 7 0) 7 v

/-- VAT_STOP: the stop at the first tick after the record was written (R199 step 4). -/
def execVatStop (v : VatId) (s : State) : Result := .next (s.stopNow v)

/-- VAT_FAULT_CLEAR: clears both words of the record (R200). -/
def execVatFaultClear (v : VatId) (s : State) : Result :=
  if s.hostReady then .next ((s.setReg (.vat v (.vatFault 0)) 0).setReg (.vat v (.vatFault 1)) 0) else .next s

/-! ## Commands (R260) -/

/-- A command's turn: the pending set whose tick has come takes effect, and a stop of that tick goes first. -/
def State.atCommand (s : State) (v : VatId) : State := (s.settle (some v)).stopNow v
/-- The command that the vat's last commit carried is consumed. -/
def State.takeCmd (s : State) (v : VatId) : State := s.modVat v (fun w => { w with cmd := 0 })
/-- A command accepted in the states given, under a further condition: its effect, or CMD_REFUSED; nothing where another command or
none is to be carried out. -/
def State.command (s : State) (v : VatId) (code : Nat) (states : List Nat) (good : State → Bool) (act : State → State) : Result :=
  let u := s.atCommand v
  if (u.vat v).cmd.toNat ≠ code then .next s
  else
    let w := u.takeCmd v
    if w.vstate v ∈ states ∧ good w then .next (act w) else .next (w.refuseCmd v)

/-- Every region of the vat is on, clocked and warm (R347, R378). -/
def State.regionsReady (s : State) (v : VatId) : Bool :=
  (s.regionsOf v).all (fun r => s.regionOn r && !s.pow.relocking.contains r
    && s.rfld (.thermWarm ⟨r.val / 64, by have := r.isLt; omega⟩) (r.val % 64) (r.val % 64) = 1)

/-- Thread 0 of a core ready at index 0, and the core's idle mark clear (R180, R186). -/
def Core.started (k : Core) : Core := { k with halted := false, idleMark := false }.modThread 0 (fun h => { h with status := .ready, pc := 0 })

/-- START: the first beat starts at this tick, thread 0 of every core becomes ready, and the ladle begins to admit (R37, R186,
R260). -/
def execStart (v : VatId) (s : State) : Result :=
  s.command v 1 [1] (fun u => u.regionsReady v) (fun u =>
    (((u.mapCores v Core.started).modVat v (fun w =>
      { w with live := true, elapsed := 0, slipRun := 0, gateOff := false, slipDue := none, gateTick := some u.now, edges := 0,
               done := [], winStart := u.now, winLen := 0 })).checkLoans v).setVstate v 2)

/-- QUIESCE: admissions stop and the pails empty (R260, R261). -/
def execQuiesce (v : VatId) (s : State) : Result := s.command v 2 [2] (fun _ => true) (fun u => u.setVstate v 3)

/-- RESUME: this tick is a beat edge, and the ladle admits again (R260). -/
def execResume (v : VatId) (s : State) : Result :=
  s.command v 3 [4] (fun u => u.regionsReady v) (fun u =>
    ((u.beatEdge v).modVat v (fun w => { w with gateOff := false, gateTick := some u.now })).setVstate v 2)

/-- Every core of the vat's regions. -/
def State.coresOf (s : State) (v : VatId) : List CoreId :=
  (s.regionsOf v).flatMap (fun r => (upTo 992).filterMap (fun i =>
    coreOf (31 * (r.val % 16) + i % 31) (32 * (r.val / 16) + i / 31)))
/-- What R261 asks before a quiescing vat is quiesced. -/
def State.quiet (s : State) (v : VatId) : Bool :=
  (s.vat v).pails.all (fun p => p.2.slots.all Option.isNone) && (s.vat v).pass.isNone
    && (s.vat v).streams.all (fun e => e.2.ended || (decide (e.2.phase ≠ .prefilling)
        && (decide (e.2.phase ≠ .decoding) || s.handedOver v e.2) && !e.2.skimming && !e.2.restoring))
    && s.drained v && (s.coresOf v).all (fun c => (s.core c).done)

/-- QUIESCED: the first tick at which the vat is quiet (R261). -/
def execQuiesced (v : VatId) (s0 : State) : Result :=
  let s := s0.settle (some v)
  if s.vstate v = 3 && !(s.vat v).stopDue && s.quiet v then .next (s.setVstate v 4) else .next s0

/-! ## Reset (R262) -/

/-- A fetched entry that the ladle has not acted on is answered with RESET. -/
def State.answerReset (s : State) (v : VatId) (n : QueueId) (e : Fetched) : State :=
  let cmd := BitVec.ofNat 16 (leAt e.bytes 2 2)
  if isControl e then s.deliver n none 0 none (controlCompletion v cmd .reset none s.now)
  else s.deliver n none 0 none
    { cmdId := cmd, status := .reset, first := true, fin := true, vat := v, commitTick := s.now, fetchTick := e.tick }
/-- Every stream of the vat ends with RESET, and so does every fetched entry not acted on. -/
def State.endAll (s : State) (v : VatId) : State :=
  let s1 := (s.vat v).streams.foldl (fun u e => u.endStream v e.1 .reset [] u.now) s
  (s1.queues.foldl (fun u q =>
    if s1.queVat q.1 = v then
      (q.2.fetched.foldl (fun w e => w.answerReset v q.1 e) (u.modQp q.1 (fun x => { x with fetched := [] }))).refreshQue q.1
    else u) s1).refreshStreams v

/-- A pass abandoned: its reads that still wait are dropped, and the arrays of the vat's presses hold no tile of it. -/
def State.abandonPass (s : State) (v : VatId) : State :=
  { s.dropTrips (.pass v) with
           presses := s.presses.map (fun (p : Fin 96 × Press) => if s.pressOf v p.1 then (p.1, { p.2 with tile := none, next := none }) else p)
           vats := (s.modVat v (fun w => { w with pass := none, passTrips := 0 })).vats }
/-- RESET: issue stops, a prefill pass is abandoned, and every stream ends; a region that awaits retirement is retired now (R262,
R372). -/
def execReset (v : VatId) (s : State) : Result :=
  s.command v 4 [1, 2, 3, 4, 5, 6] (fun _ => true) (fun u =>
    if u.vstate v = 6 then u
    else
      let s1 := ((((if (u.vat v).pressStale then u.putV v .vatPrefill 18 18 1 else u).haltVat v).setBusy v 0).abandonPass v).modVat v (fun w =>
        { w with pressStale := false, groups := [], wiping := .reset, stopWait := false, stopDue := false, slipDue := none, gateOff := true })
        |>.putV v .vatStatus 2 0 6
      (s1.endAll v).retirePending (u.regionsOf v))

/-- The counters of a vat restored to the values the loader last wrote (R171). -/
def State.restoreCounters (s : State) (v : VatId) : State :=
  let s1 := (s.regs.map Prod.fst).foldl (fun u r =>
    match r with
    | .vat x (.ctr i w) =>
      if x = v then u.setReg r (if w = 0 then (u.ctr v i).loaded0 else (u.ctr v i).loaded1) else u
    | _ => u) s
  { s1 with ctrs := s1.ctrs.map (fun p => if p.1.1 = v then (p.1, { p.2 with rounds := 0 }) else p) }
/-- The balances of a vat's customers cleared (R262, R281). -/
def State.clearBalances (s : State) (v : VatId) : State :=
  (s.regs.map Prod.fst).foldl (fun u r =>
    match r with
    | .ladleCust c 1 =>
      if u.rfld (.ladleCust c 0) 37 32 = v.val then { u.putR r 31 0 0 with custs := kdel u.custs c } else u
    | _ => u) s
/-- The registers whose tables say 'cleared by vat reset'. -/
def State.clearVatCounts (s : State) (v : VatId) : State :=
  let s1 := ((((s.setReg (.vat v .vatSlip) 0).setReg (.vat v .vatPrefillStat) 0).putV v .meshStatus 63 32 0).putV v .linkTimeout
    63 32 0).putR (.thermVat v) 4 1 0
  let s2 := (s.regionsOf v).foldl (fun u r => u.putR (.meshRegionStat r) 31 0 0) s1
  (s2.regs.map Prod.fst).foldl (fun u r =>
    match r with
    | .ladleQStat n => if u.queVat n = v then u.setReg r 0 else u
    | .vat x (.kvSeq _) => if x = v then u.setReg r 0 else u
    | _ => u) s2
/-- A core after a vat reset: registers, tiles and powered scratchpad zero; cream, instruction store and control words stay, and an
idle mark stands, for its threads are idle (R58, R67, R77, R180). -/
def Core.resetByVat (k : Core) : Core := { (k.idled).zeroed 0x200000 0x310000 with idleMark := k.idleMark }

/-- What a vat's counters still had to send (R174), dropped. -/
def State.dropNotifies (s : State) (v : VatId) : State :=
  { s with notifies := s.notifies.map (fun p => (p.1, p.2.filter (fun j => j.vat ≠ v))) }

/-- RESET_DONE: the traffic has drained; what R262 clears is cleared, and the vat is LOADED. -/
def execResetDone (v : VatId) (s : State) : Result :=
  let idle (k : Core) : Bool := k.macRun.isNone && k.macWait.isNone && k.moves.isEmpty && k.dmaActive.isEmpty
  if s.vstate v ≠ 6 || decide ((s.vat v).wiping ≠ .reset) || !s.drained v || !(s.listedCores v).all (fun c => !s.regionRuns (regionOf c) || idle (s.core c))
  then .next s
  else
    let s1 := ((s.mapCores v Core.resetByVat).restoreCounters v).clearVatCounts v
    .next (((s1.clearBalances v).modVat v (fun w =>
      { w with wiping := .none, cursor := 0, credits := [], pails := [], elapsed := 0, slipRun := 0, gateOff := false, edges := 0, done := [],
               inbound := false, gateTick := none, live := false, hwStop := false, handing := false, reload := false })).dropNotifies v |>.setVstate v 1)

/-! ## Release (R263) -/

/-- RELEASE: the vat is RESETTING while its cream and scratchpad are zeroed; a region that awaits retirement is retired now (R263,
R372). -/
def execRelease (v : VatId) (s : State) : Result :=
  s.command v 5 [0, 1] (fun _ => true) (fun u =>
    ((u.modVat v (fun w => { w with wiping := .release })).putV v .vatStatus 2 0 6).retirePending (u.regionsOf v))

/-- What one register becomes when a vat's resources return to no vat (R263). -/
def State.returnReg (s : State) (v : VatId) (r : Reg) : State :=
  let share (w : Fin 8) : State := if w.val = v.val / 8 then s.putR r (8 * (v.val % 8) + 7) (8 * (v.val % 8)) 0 else s
  match r with
  | .glbPress _ => if s.rfld r 6 6 = 1 ∧ s.rfld r 5 0 = v.val then s.putR r 6 6 0 else s
  | .que n => if s.queVat n = v then s.putR r 0 0 0 else s
  | .ladleVariant i 0 => if s.rfld (.ladleVariant i 0) 6 1 = v.val then s.putR r 0 0 0 else s
  | .meshShare _ w => share w
  | .stackShare _ w => share w
  | .linkShare _ w => share w
  | .pcieShare _ w => share w
  | .vat u (.syncMap _) => if u = v then s.putR r 0 0 0 else s
  | _ => s

/-- RELEASE_DONE: everything is zero, every resource is returned, and the vat is FREE (R263). -/
def execReleaseDone (v : VatId) (s : State) : Result :=
  if s.vstate v ≠ 6 || decide ((s.vat v).wiping ≠ .release) then .next s
  else
    let rs := s.regionsOf v
    let s1 := (rs.foldl (fun u r => u.zeroRegion r) s).endAll v
    let s2 := (s1.regs.map Prod.fst).foldl (fun u r => u.returnReg v r) s1
    let s3 := (allFin 3).foldl (fun u w => u.setReg (.vat v (.vatRegions w)) 0) s2
    let s4 := rs.foldl (fun u r => u.requestOff r) s3
    let s5 := { s4.dropNotifies v with ctrVat := s4.ctrVat.filter (fun p => p.2 ≠ v), meshStaged := kdel s4.meshStaged v }
    .next ((s5.modVat v (fun w =>
      { w with wiping := .none, ingot := none, landed := [], placed := false, live := false, pressStale := false,
               alone := false, unsynced := false, copied := [], groups := [], loadReport := none })).setVstate v 0)

end Sys2Proof.Machine
end

