-- ==== Sys2Proof/Machine/Repair.lean ====
section
/-! DEFINITION. Defects, spares and retired cores (R14, R343, R344, R365), memory errors (R24, R66, R363) and recipe reports (R111,
R112). -/

namespace Sys2Proof.Machine

/-! ## The defect map (R344, R359) -/

/-- A defect entry that names a position. -/
def State.entryOf (s : State) (p : RouterId) : Option (Fin 6144) :=
  (allFin 6144).find? (fun i => s.rfld (.pwrDefect i) 21 21 = 1 && s.rfld (.pwrDefect i) 8 0 = p.px.val
    && s.rfld (.pwrDefect i) 17 9 = p.py.val)
/-- A position's core is in the map. -/
def State.defective (s : State) (p : RouterId) : Bool :=
  match s.entryOf p with
  | some i => s.rfld (.pwrDefect i) 18 18 = 1
  | none => false
/-- PWR_REGION_n.DEFECTS as it stands: defective cores in the map. -/
def State.refreshDefects (s : State) (r : Region) : State :=
  s.putR (.pwrRegion r) 22 17 (min 63 ((allFin 6144).countP (fun i => s.defectIn i r && s.rfld (.pwrDefect i) 18 18 = 1)))
/-- Bits of a position's entry set: 18 CORE, 19 EAST_DEAD, 20 SOUTH_DEAD; a new entry takes the first free place. -/
def State.addDefect (s : State) (p : RouterId) (bit : Nat) : State :=
  let i := match s.entryOf p with
    | some i => some i
    | none => (allFin 6144).find? (fun i => s.rfld (.pwrDefect i) 21 21 = 0)
  match i with
  | some i =>
    (((((s.putR (.pwrDefect i) 8 0 p.px.val).putR (.pwrDefect i) 17 9 p.py.val).putR (.pwrDefect i) bit bit 1).putR
      (.pwrDefect i) 21 21 1).refreshMap).refreshDefects (regionAt p)
  | none => s

/-! ## Spares (R14) -/

/-- A spare of a region row that works and holds no logical core. -/
def State.spareFree (s : State) (r : Region) (py : Fin 384) : Option RouterId :=
  let p : RouterId := ⟨⟨(32 * (r.val % 16) + 31) % 512, Nat.mod_lt _ (by decide)⟩, py⟩
  if !s.defective p && !(s.pow.remap.any (fun q => q.2 = p)) && regionAt p = r then some p else none
/-- The spare for a core: in its own row first, else in the nearest row, the northern one on a tie. -/
def State.spareFor (s : State) (c : CoreId) : Option RouterId :=
  let r := regionOf c
  (upTo 32).findSome? (fun d =>
    let north := if d ≤ c.ly.val then (toFin? 384 (c.ly.val - d)).bind (s.spareFree r) else none
    match north with
    | some p => some p
    | none => (toFin? 384 (c.ly.val + d)).bind (s.spareFree r))
/-- A logical core moved to a spare. -/
def State.remapCore (s : State) (c : CoreId) : State :=
  match s.spareFor c with
  | some p => { s with pow := { s.pow with remap := kset s.pow.remap c p } }
  | none => s

/-! ## Retiring a core in service (R365) -/

/-- A retired core's vat is reloaded: the warden commits RESET once it has stopped, or now where it does not run. -/
def State.reloadVat (s : State) (v : VatId) : State :=
  s.modVat v (fun w => { w with reload := true, cmd := if s.stoppable v || s.vstate v = 0 then w.cmd else 4 })
/-- A core retired in service: it stops, its vat stops by hardware stop, the map grows, and its logical core moves to a spare, with
its weight area, instruction store and loader-written data rewritten; a region with more than 32 defects is retired instead. -/
def State.retireCore (s : State) (c : CoreId) : State :=
  let r := regionOf c
  let s1 := match s.vatOf c with
    | some v => s.hardStop v .vatfault c
    | none => s
  let s2 := (((s1.modCore c Core.halt).addDefect (s.posOf c) 18).putR .pwrMap 1 1 1).logEvent 0x0011 (statusCode .vatfault) 1 r
  if 33 ≤ s2.rfld (.pwrRegion r) 22 17 then s2.retireRegion r
  else
    let s3 := (s2.remapCore c).modCore c (fun k => k.zeroed (512 * k.wb) 0x180000)
    match s.vatOf c with
    | some v => s3.reloadVat v
    | none => s3

/-- CORE_RETIRED: a core fails by R365's causes (error counts, a MAC residue mismatch, a router without bypass). -/
def execCoreRetired (c : CoreId) (s : State) : Result :=
  if !s.regionOn (regionOf c) || s.regionRetired (regionOf c) || s.defective (s.posOf c) then .next s else .next (s.retireCore c)

/-! ## Memory errors (R24, R66, R363) -/

/-- The failing line or word rewritten: a weight line with what it held, a KV line or a scratchpad word with zeros. -/
def Core.rewritten (k : Core) (a : Nat) : Core :=
  if a < 512 * k.wb then k.healed (a / 512 * 512) 512
  else if a < 0x180000 then k.zeroed (a / 512 * 512) (a / 512 * 512 + 512)
  else k.zeroed (a / 4 * 4) (a / 4 * 4 + 4)
/-- A double-bit error met at a word: the core's flag, a hardware stop of its vat, the rewriting, and on a second one at the word
within an hour the retirement of the core. -/
def State.eccStop (s : State) (c : CoreId) (a : Nat) : State :=
  let w := a / eccSize a * eccSize a
  let again := (s.core c).eccLog.any (fun e => e.1 = w && !windowOver e.2.1 e.2.2 s.now)
  let s1 := s.modCore c (fun k => { k.rewritten a with eccFatal := true, eccLog := k.eccLog ++ [(w, s.now, s.hour)] })
  let s2 := match s.vatOf c with
    | some v => s1.hardStop v .eccfatal c
    | none => s1
  let s3 := s2.logEvent 0x0015 (statusCode .eccfatal) 1 (regionOf c)
  if again then s3.retireCore c else s3

/-- MEM_ECCFATAL: a double-bit error in cream or scratchpad of a core is met (R363). -/
def execMemEccfatal (c : CoreId) (addr : Nat) (s : State) : Result :=
  match (s.core c).reach addr 1 with
  | some .cream => if s.regionRuns (regionOf c) then .next (s.eccStop c addr) else .next s
  | some .spm => if s.regionRuns (regionOf c) then .next (s.eccStop c addr) else .next s
  | _ => .next s

/-- The address of a line as burnish counts them: the 3,072 lines of cream, then those of the scratchpad. -/
def burnishAddr (line : Nat) : Nat := if line < 3072 then 512 * line else 0x200000 + 512 * (line - 3072)
/-- Burnish of a core's line. -/
def State.burnishCore (s : State) (c : CoreId) (line : Fin 3840) : State :=
  let a := burnishAddr line
  if !s.regionRuns (regionOf c) then s
  else
    let s1 := (s.readCounted c a 512).modCore c (fun k => { k with eccSingle := k.eccSingle.filter (fun w => !eccTouches a 512 w) })
    match (s1.core c).eccDouble.find? (eccTouches a 512) with
    | some w => s1.eccStop c w
    | none => if 16 < (s1.core c).fixLog.countP (fun e => e.1 = line.val && !windowOver e.2.1 e.2.2 s.now) then s1.retireCore c else s1
/-- Burnish of a granule of a stack: the words with an error are known from now on; single-bit errors are counted, corrected and written
back, double-bit errors are returned; the last granule ends a pass (R254). -/
def State.burnishStack (s : State) (k : Fin 24) (granule : Nat) (singles doubles : List Nat) (last : Bool) : State :=
  let a := 0x100000000000 + k.val * 0x1000000000 + 4096 * granule
  if 48000000000 < 4096 * granule + 4096 || s.chanRetired a then s
  else
    let key (o : Nat) : Nat := k.val * 2 ^ 36 + (4096 * granule + o % 4096) / 8 * 8
    let s1 := { s with stackSingle := (s.stackSingle ++ singles.map key).eraseDups
                       stackDouble := (s.stackDouble ++ doubles.map key).eraseDups }
    let s2 := (s1.countStackFixed a 4096).countStackFatal a 4096
    let s3 := { s2 with stackSingle := s2.stackSingle.filter (fun w => w / 4096 * 4096 ≠ key 0) }
    if last then s3.putR (.glbStack k) 63 56 (s3.rfld (.glbStack k) 63 56 + 1) else s3
/-- BURNISH_READ: burnish reads a line or a granule, writes corrected words back, and meets double-bit errors as any requester does (R24,
R66, R254, R363). -/
def execBurnishRead (t : BurnishTarget) (last : Bool) (s : State) : Result :=
  match t with
  | .core c line => .next (s.burnishCore c line)
  | .stack k g singles doubles => if s.barUp then .next (s.burnishStack k g singles doubles last) else .next s

/-! ## Recipe reports (R111, R112) -/

/-- VAT_RECIPE_SUMMARY_m's bit of a tag as it stands. -/
def State.refreshSummary (s : State) (v : VatId) (n : Fin 4096) : State :=
  s.putV v (.recipeSummary ⟨n.val / 64, by have := n.isLt; omega⟩) (n.val % 64) (n.val % 64)
    (if s.vfld v (.recipe n 0) 3 0 = 0 then 0 else 1)
/-- A report applied to an entry: its cause, the count, and the first fields where the entry was clear. -/
def State.applyRecipe (s : State) (r : RecipeReport) : State :=
  let n : Fin 4096 := ⟨r.tag.toNat, r.tag.isLt⟩
  let fresh := s.vfld r.vat (.recipe n 0) 3 0 = 0
  let s1 := (s.putV r.vat (.recipe n 0) r.cause r.cause 1).bumpR (.vat r.vat (.recipe n 0)) 31 16 1
  let s2 := if fresh then
      ((s1.putV r.vat (.recipe n 0) 40 32 r.core.lx).putV r.vat (.recipe n 0) 49 41 r.core.ly).putV r.vat (.recipe n 1) 47 0 r.tick
    else s1
  let s3 := s2.refreshSummary r.vat n
  if fresh then s3.cause (.vat r.vat .vatIrq) 17 else s3
/-- RECIPE_REPORT: a report of the vat's arrives at its recipe table (R111, R112). -/
def execRecipeReport (v : VatId) (i : Nat) (s : State) : Result :=
  match ((s.recipes.zip (upTo s.recipes.length)).filter (fun p => p.1.vat = v))[i]? with
  | some (r, k) => .next ({ s with recipes := s.recipes.eraseIdx k }.applyRecipe r)
  | none => .next s
/-- A W1C write of an entry's causes: what leaves them all zero clears REPORTS (R112). -/
def State.clearRecipe (s : State) (v : VatId) (n : Fin 4096) (ones : Nat) : State :=
  let left := fld (s.vreg v (.recipe n 0) &&& ~~~ w64 (ones % 16)) 3 0
  let s1 := s.putV v (.recipe n 0) 3 0 left
  (if left = 0 then s1.putV v (.recipe n 0) 31 16 0 else s1).refreshSummary v n

end Sys2Proof.Machine
end

