-- ==== Sys2Proof/Machine/Tile.lean ====
section
/-! DEFINITION. The tile instructions: MAC, MACA, TCLR and SOLDER (R69 to R81, R92 to R99, R216 to R224). A sweep is made in one
step when its instruction becomes the running one (log entry 12). -/

namespace Sys2Proof.Machine

/-! ## Geometry (R71, R91, R216) -/

/-- The accumulation paths. -/
inductive MacPath where
  | block | int | float | half
  deriving DecidableEq, Repr

/-- The path of a pairing, none where R71 and R91 have none. -/
def macPath (w a cls : Nat) : Option MacPath :=
  let fp8w := w = 7 || w = 8
  let fp8a := a = 7 || a = 8
  let w16 := w = 0xB || w = 0xC
  let a16 := a = 0xB || a = 0xC
  if cls = 1 then
    (if (fp8w && fp8a) || (w16 && a16) then some .half else none)
  else if w ≤ 6 && (a = 3 || a = 4 || fp8a) then some .block
  else if fp8w && fp8a then some .block
  else if (w = 9 || w = 0xA) && a = 0xA then some .int
  else if w16 && a16 then some .float
  else none

/-- The reduction length K. -/
def macK (a : Nat) : Nat := if a = 0xB || a = 0xC then 1024 else 2048
/-- Groups per feature. -/
def macGroups (f : FmtT) : Nat := macK f.afmt.toNat / 32
/-- The feature size FB in bytes. -/
def macFB (f : FmtT) : Nat := macGroups f * groupBytes f.wfmt.toNat
/-- F, the whole features of the weight stream. -/
def macF (f : FmtT) : Nat := 512 * (f.count.toNat + 1) / macFB f

/-! ## Operands of a group (R74, R89, R92) -/

/-- The base of an activation buffer. -/
def abufBase (b : Bool) : Nat := if b then 0x324000 else 0x320000
/-- The scale byte of group g of row t: the stored one for MXFP8, 127 otherwise (R71). -/
def actScale (k : Core) (b : Bool) (afmt t g : Nat) : Nat :=
  if afmt = 3 || afmt = 4 then (memGet k.mem (abufBase b + 2112 * t + 2048 + g)).toNat else 127
/-- The element bytes of group g of row t. -/
def actBytes (k : Core) (b : Bool) (afmt t g : Nat) : List Byte :=
  let w := if afmt = 0xB || afmt = 0xC then 64 else 32
  memBytes k.mem (abufBase b + 2112 * t + w * g) w
/-- A weight group's scale and element bytes. -/
def weightScale (wfmt : Nat) (bs : List Byte) : Nat := if wfmt ≤ 6 then (bs.headD 0).toNat else 127
def weightElems (wfmt : Nat) (bs : List Byte) : List Byte := if wfmt ≤ 6 then bs.drop 1 else bs

/-! ## One group into one element (R91 to R99) -/

/-- A sweep under way: the core, the hazards met in order. -/
structure Sweep where
  core : Core
  causes : List (Fin 4) := []
  deriving DecidableEq, Repr

/-- A pair replaced in the swept core. -/
def Sweep.put (z : Sweep) (b : Bool) (e : Nat) (p : Word32 × Word32) : Sweep := { z with core := z.core.putPair b e p }
/-- A hazard met. -/
def Sweep.note (z : Sweep) (xs : List (Fin 4)) : Sweep := { z with causes := z.causes ++ xs }

/-- One group result of the integer path into a word of the sum plane, with the wrap bit of its tile (R95). -/
def Sweep.addInt (z : Sweep) (b : Bool) (e : Nat) (g : Int) : Sweep :=
  let a := tileBase b + 4 * e
  let (v, wrapped) := int32AddInt (z.core.word a) g
  let k := z.core.putWord a v
  if wrapped then
    { core := (if b then { k with tileBWrap := true } else { k with tileAWrap := true }), causes := z.causes ++ [1] }
  else { z with core := k }

/-- One weight group against one row: the group result by its path, added into the element. -/
def Sweep.group (z : Sweep) (path : MacPath) (f : FmtT) (bs : List Byte) (e t g : Nat) : Sweep :=
  let w := f.wfmt.toNat
  let a := f.afmt.toNat
  let buf := decide (f.buf = 1)
  let tile := decide (f.tile = 1)
  let ab := actBytes z.core buf a t g
  let wel := weightElems w bs
  match path with
  | .block =>
    let r := blockGroup ⟨weightScale w bs, groupElems w wel⟩ ⟨actScale z.core buf a t g, groupElems a ab⟩
      (quantum w) (quantum a)
    (z.note r.2).put tile e (compAdd (z.core.pair tile e) r.1)
  | .int => z.addInt tile e (intGroup (groupInts w wel) (groupInts a ab))
  | .float =>
    let ps := ((groupElems w wel).zip (groupElems a ab)).map (fun p => enc32 (fpMul p.1 p.2))
    z.put tile e (compAdd (z.core.pair tile e) (floatGroup ps))
  | .half =>
    let ps := ((groupElems w wel).zip (groupElems a ab)).map (fun p => fpMul p.1 p.2)
    z.put tile e (fp16Add (z.core.pair tile e).1 (fp16Group ps), 0)

/-- Group n of the weight stream against every row of the pail. -/
def Sweep.groupRows (z : Sweep) (path : MacPath) (f : FmtT) (stream : List Byte) (n : Nat) : Sweep :=
  let gb := groupBytes f.wfmt.toNat
  let bs := (stream.drop (gb * n)).take gb
  let g := n % macGroups f
  let feat := n / macGroups f
  let z1 := if f.wfmt = 6 && tb2Invalid (bs.drop 1) then z.note [2] else z
  (upTo (f.tok.toNat + 1)).foldl
    (fun acc t => acc.group path f bs (4 * (f.feat.toNat + feat) + t) t g) z1

/-! ## Solder (R80, R81, R98, R277) -/

/-- One delta entry with the line and scale it stands under. -/
structure SolderEntry where
  line : Nat
  scale : Nat
  elem : Nat
  k : Nat
  feat : Nat
  deriving DecidableEq, Repr

/-- What a stream's words come to: its entries and scale bytes in order, or none where a word is malformed. -/
def solderParse (count feats kLen : Nat) : Option Nat → Option Nat → List Word32 → Option (List SolderEntry)
  | _, _, [] => none
  | line, scale, w :: ws =>
    if bitAt w 31 then
      let ty := fld w 30 28
      if ty = 7 then (if fld w 27 0 = 0 ∧ scale.isSome then some [] else none)
      else if ty = 1 then
        (if fld w 27 8 = 0 then solderParse count feats kLen line (some (fld w 7 0)) ws else none)
      else if ty = 0 then
        let i := fld w 11 0
        let rises : Bool := match line with
          | some l => decide (l < i)
          | none => true
        if fld w 27 12 = 0 ∧ scale.isSome ∧ rises = true ∧ i ≤ count then solderParse count feats kLen (some i) scale ws else none
      else none
    else
      match line, scale with
      | some l, some sc =>
        if fld w 30 29 = 0 ∧ fld w 28 19 < feats ∧ fld w 18 8 < kLen then
          (solderParse count feats kLen line scale ws).map
            (fun es => { line := l, scale := sc, elem := fld w 7 0, k := fld w 18 8, feat := fld w 28 19 } :: es)
        else none
      | _, _ => none

/-- How many words of a stream the unit reads: up to its end word, or to the last one there is. -/
def solderLen : List Word32 → Nat
  | [] => 0
  | w :: ws => if bitAt w 31 && fld w 30 28 = 7 then 1 else 1 + solderLen ws
/-- A scale byte of 0xFF stands in the stream before its end. -/
def solderNan : List Word32 → Bool
  | [] => false
  | w :: ws =>
    if bitAt w 31 && fld w 30 28 = 7 then false
    else (bitAt w 31 && fld w 30 28 = 1 && fld w 7 0 = 0xFF) || solderNan ws

/-- A value times 2^(scale − 127), NaN for the scale 0xFF (R88). -/
def scaled (v : Fp) (scale : Nat) : Fp := if scale = 0xFF then .nan else fpMul v (.fin false 1 ((scale : Int) - 127))

/-- The activation element K of row t with its scale (R277). -/
def actElem (k : Core) (b : Bool) (afmt t i : Nat) : Fp :=
  let g := i / 32
  let el := if afmt = 0xA then (groupInts 0xA (actBytes k b afmt t g)).map (fun v => ofInt v 0)
            else groupElems afmt (actBytes k b afmt t g)
  scaled (el.getD (i % 32) .nan) (actScale k b afmt t g)

/-- One solder product added into its element (R98). -/
def Sweep.solder (z : Sweep) (f : FmtT) (t : Nat) (e : SolderEntry) : Sweep :=
  let tile := decide (f.tile = 1)
  let el := 4 * (f.feat.toNat + e.feat) + t
  let d := scaled (fpDecode fmtE4m3 e.elem) e.scale
  let p := enc32 (fpMul d (actElem z.core (f.buf = 1) f.afmt.toNat t e.k))
  z.put tile el (compAdd (z.core.pair tile el) p)

/-! ## The sweep (R72, R81, R216) -/

/-- One line: its group results, then its solder products in order of token position and entry. -/
def Sweep.line (z : Sweep) (path : MacPath) (f : FmtT) (stream : List Byte) (sol : List (Nat × List SolderEntry)) (i : Nat) :
    Sweep :=
  let gb := groupBytes f.wfmt.toNat
  let lo := 512 * i / gb
  let hi := min (512 * (i + 1) / gb) (macF f * macGroups f)
  let z1 := ((upTo hi).drop lo).foldl (fun acc n => acc.groupRows path f stream n) z
  sol.foldl (fun acc p => (p.2.filter (fun e => e.line = i)).foldl (fun a e => a.solder f p.1 e) acc) z1

/-- Every line of a stream in turn. -/
def sweepLines (k : Core) (path : MacPath) (f : FmtT) (stream : List Byte) (sol : List (Nat × List SolderEntry)) (n : Nat) :
    Sweep := (upTo n).foldl (fun acc i => acc.line path f stream sol i) { core := k }

/-- The words of a core's scratchpad from an address to the end of the powered range. -/
def Core.spmWords (k : Core) (a : Nat) : List Word32 := toWords (memBytes k.mem a (0x200000 + 49152 * k.groups - a))

/-- The armed streams of the token positions in use. -/
def MacJob.streams (j : MacJob) : List (Nat × Nat) :=
  match j.solder with
  | none => []
  | some xs => (upTo (j.f.tok.toNat + 1)).filterMap (fun t => (xs.getD t none).map (fun a => (t, a)))

/-- The running job of a core marked swept. -/
def State.markSwept (s : State) (c : CoreId) : State :=
  s.modCore c (fun k => { k with macRun := k.macRun.map (fun j => { j with swept := true }) })

/-- A data fault of a running MAC or MACA: a double-bit error delivers no data, and the vat stops (R24, R66, R197). -/
def State.sweepFatal (s : State) (c : CoreId) (j : MacJob) : State :=
  ((s.eccMet c).markSwept c).threadFaultAt ⟨c, j.thread⟩ j.pc .eccfatal
/-- The scratchpad ranges that a job's solder streams take: address and bytes, for each token position. -/
def MacJob.solderRanges (k : Core) (j : MacJob) : List (Nat × Nat) :=
  j.streams.map (fun p => (p.2, 4 * solderLen (k.spmWords p.2)))

/-- A sweep with solder streams may make the cream port wait for the solder unit (R81). For how many cycles the model does not count: what
SOLDER_HOLD gains is a free value (log entry 9). -/
def State.solderWaits (s : State) (c : CoreId) (j : MacJob) : State :=
  if j.streams.isEmpty then s
  else
    { s.modCore c (fun k => { k with solderHold := min 65535 (k.solderHold + (Config.freeWord s.freeCtr).toNat) }) with
      freeCtr := s.freeCtr + 1 }
/-- One core's sweep over n lines of a stream of bytes: the tile takes its results, the hazards are recorded in order. A
malformed solder word stops the vat with VATFAULT (R277), and so does a double-bit error in a solder stream with ECCFATAL (R66). -/
def State.sweepMac (s0 : State) (c : CoreId) (j : MacJob) (stream : List Byte) (n : Nat) : State :=
  let ranges := j.solderRanges (s0.core c)
  if ranges.any (fun p => (s0.core c).doubleAt p.1 p.2) then s0.sweepFatal c j else
  let s := ranges.foldl (fun u p => u.readCounted c p.1 p.2) s0
  let k := s.core c
  let t : Site := ⟨c, j.thread⟩
  let words := j.streams.map (fun p => (p.1, k.spmWords p.2))
  let parsed := words.map (fun p => (p.1, solderParse j.f.count.toNat (macF j.f) (macK j.f.afmt.toNat) none none p.2))
  match macPath j.f.wfmt.toNat j.f.afmt.toNat j.f.cls.toNat with
  | none => s
  | some path =>
    if parsed.any (fun p => p.2.isNone) then (s.markSwept c).threadFaultAt t j.pc .vatfault
    else
      let z := sweepLines k path j.f stream (parsed.map (fun p => (p.1, p.2.getD []))) n
      let nan : List (Fin 4) := if words.any (fun p => solderNan p.2) then [3] else []
      (((s.setCore c z.core).markSwept c).solderWaits c j).raiseAll c (z.causes ++ nan)

/-! ## The weight bus (R69, R70) -/

/-- The physical position h places from another in a direction of SRC: 0 north, 1 east, 2 south, 3 west; none outside the
region. -/
def spanPos (r : RouterId) (d h : Nat) : Option RouterId :=
  let x := r.px.val
  let y := r.py.val
  let ok := if d = 0 then decide (h ≤ y % 32) else if d = 1 then decide (x % 32 + h ≤ 31)
            else if d = 2 then decide (y % 32 + h ≤ 31) else decide (h ≤ x % 32)
  if ok then
    let x' := if d = 1 then x + h else if d = 3 then x - h else x
    let y' := if d = 0 then y - h else if d = 2 then y + h else y
    match toFin? 512 x', toFin? 384 y' with
    | some a, some b => some ⟨a, b⟩
    | _, _ => none
  else none

/-- The logical cores within a sender's span; a position that holds none is bypassed (R70). -/
def State.spanCores (s : State) (c : CoreId) (f : FmtT) : List CoreId :=
  (upTo f.span.toNat).filterMap (fun h => (spanPos (s.posOf c) (f.src.toNat - 1) (h + 1)).bind s.coreAt)

/-- The receiver's job: a running, unswept MAC whose source is the direction that the sender lies in (log entry 13). -/
def State.receives (s : State) (d : Nat) (c : CoreId) : Option MacJob :=
  match (s.core c).macRun with
  | some j => if !j.swept && !j.attention && j.f.src.toNat = 8 + (d + 2) % 4 then some j else none
  | none => none

/-- A sender's sweep with its whole span, once every receiver in the span runs its MAC. A receiver of another line count
sweeps the lines it shares and faults with VATFAULT. -/
def State.sweepSpan (s : State) (c : CoreId) (j : MacJob) (stream : List Byte) : State :=
  let d := j.f.src.toNat - 1
  let rs := s.spanCores c j.f
  if rs.all (fun r => (s.receives d r).isSome) then
    rs.foldl (fun a r =>
      match s.receives d r with
      | none => a
      | some g =>
        let n := min (g.f.count.toNat + 1) (j.f.count.toNat + 1)
        let a1 := a.sweepMac r g stream n
        if g.f.count = j.f.count then a1 else a1.threadFaultAt ⟨r, g.thread⟩ g.pc .vatfault)
      (s.sweepMac c j stream (j.f.count.toNat + 1))
  else s

/-- The sender whose span a receiver waits for: the nearest one in its source's direction. -/
def State.senderOf (s : State) (c : CoreId) (src : Nat) : Option CoreId :=
  let from_ := src - 8
  ((upTo 31).filterMap (fun h => (spanPos (s.posOf c) from_ (h + 1)).bind s.coreAt)).find? (fun x =>
    match (s.core x).macRun with
    | some j => !j.swept && !j.attention && j.f.src.toNat = 1 + (from_ + 2) % 4 && (s.spanCores x j.f).contains c
    | none => false)

/-- A core whose running MAC reads its own cream makes its sweep; a double-bit error delivers no data (R24, R197). -/
def State.sweepOwn (s : State) (c : CoreId) (j : MacJob) : State :=
  let k := s.core c
  let a := 512 * j.f.line.toNat
  let n := 512 * (j.f.count.toNat + 1)
  if k.doubleAt a n then s.sweepFatal c j
  else
    let s1 := s.readCounted c a n
    if j.f.src = 0 then s1.sweepMac c j (memBytes k.mem a n) (j.f.count.toNat + 1)
    else if s1.spanCores c j.f |>.all (fun r => (s1.receives (j.f.src.toNat - 1) r).isSome) then
      s1.sweepSpan c j (memBytes k.mem a n)
    else s

/-! ## The attention form (R127, R129, R221 to R224) -/

/-- One item of a walk output. -/
structure WalkItem where
  line : Nat
  rcd : Nat
  slot : Nat
  head : Nat
  pos : Nat
  deriving DecidableEq, Repr

def walkItem (v : Nat) : WalkItem :=
  { line := v % 2 ^ 12, rcd := v / 2 ^ 12 % 2 ^ 8, slot := v / 2 ^ 20 % 4, head := v / 2 ^ 22 % 2 ^ 6, pos := v / 2 ^ 28 % 2 ^ 16 }

/-- One row of a walk output, when valid: slot, head and token. -/
structure AttnRow where
  q : Nat
  slot : Nat
  head : Nat
  token : Nat
  deriving DecidableEq, Repr

/-- The valid rows among rows 0 to TOK. -/
def attnRows (head : List Byte) (tok : Nat) : List AttnRow :=
  (upTo (tok + 1)).filterMap (fun q =>
    let w := leAt head (8 + 4 * q) 4
    if w / 2 ^ 31 % 2 = 1 then some { q := q, slot := w % 4, head := w / 4 % 64, token := w / 2 ^ 8 % 4 } else none)

/-- The running state of one query row and head: m, and the pairs l and o. -/
structure Attn where
  m : Fp := .inf true
  l : Word32 × Word32 := (0, 0)
  o : List (Word32 × Word32) := []
  deriving DecidableEq, Repr

/-- The least integer not below a value. R127 calls m an integer and gives a zero no sign: as in IEEE 754, the ceiling of a value in (−1, 0)
is −0.0 here, and STATE then holds 0x8000_0000 (DESIGN CHOICE, log entry 103). -/
def fpCeil : Fp → Fp
  | .fin b m e =>
    if 0 ≤ e then .fin b m e
    else
      let q : Int := 2 ^ (-e).toNat
      let v : Int := if b then -(m : Int) else (m : Int)
      let c := -((-v) / q)
      .fin b c.natAbs 0
  | x => x

/-- The greater of two values, the other one when one is NaN (R103). -/
def fpMax (a b : Fp) : Fp := if a.isNan then b else if b.isNan then a else if fpBelow a b then b else a

/-- 2^(a − b) for integers or infinities. -/
def pow2Diff (a b : Fp) : Fp :=
  match fpAdd a b.neg with
  | .nan => .nan
  | .inf neg => if neg then .fin false 0 0 else .inf false
  | .fin neg m e =>
    let v : Int := m * 2 ^ e.toNat
    .fin false 1 (if neg then -v else v)

/-- A pair scaled by a power of two. -/
def scalePair (p : Word32 × Word32) (a : Fp) : Word32 × Word32 := (enc32 (fpMul (dec32 p.1) a), enc32 (fpMul (dec32 p.2) a))

/-- One record taken into a row's state: the score s, then m, l and o (R127). -/
def attnStep (scale : Word32) (st : Attn) (score : Word32) (v : List Fp) : Attn :=
  let s2 := mul32 score scale
  let m2 := fpMax st.m (fpCeil (dec32 s2))
  let a := pow2Diff st.m m2
  let w := exp2w (enc32 (fpAdd (dec32 s2) m2.neg))
  { m := m2
    l := compAdd (scalePair st.l a) w
    o := (st.o.zip v).map (fun p => compAdd (scalePair p.1 a) (enc32 (fpMul (dec32 w) p.2))) }

/-- The 32 elements and scale of block b of a stored key or value (R89, R114). -/
def kvBlock (fmt : Nat) (bs : List Byte) (b : Nat) : Block :=
  let x := (bs.drop (33 * b)).take 33
  ⟨(x.headD 0).toNat, groupElems fmt (x.drop 1)⟩

/-- The score of a record against query head j of a row, with the hazards raised. -/
def attnScore (k : Core) (f : FmtT) (dhb q j : Nat) (rcd : List Byte) : Word32 × List (Fin 4) :=
  let buf := decide (f.buf = 1)
  let a := f.afmt.toNat
  let w := f.wfmt.toNat
  let r := (upTo dhb).foldl (fun acc b =>
    let i := j * dhb + b
    let g := blockGroup ⟨actScale k buf a q i, groupElems a (actBytes k buf a q i)⟩ (kvBlock w rcd b) (quantum a) (quantum w)
    (compAdd acc.1 g.1, acc.2 ++ g.2)) (((0, 0) : Word32 × Word32), ([] : List (Fin 4)))
  (collapse32 r.1, r.2)

/-- The value elements of a record, each times its scale, and the hazard of a NaN scale. -/
def kvValues (fmt dhb : Nat) (rcd : List Byte) : List Fp × List (Fin 4) :=
  let bs := (upTo dhb).map (fun b => kvBlock fmt (rcd.drop (33 * dhb)) b)
  (bs.flatMap (fun b => b.elems.map (fun e => scaled e b.scale)), if bs.any (fun b => b.scale = 0xFF) then [3] else [])

/-- What one item means for a pass: the slot's committed length and first position, and the row whose token wrote it. -/
structure AttnSlot where
  lc : Nat
  first : Nat
  deriving DecidableEq, Repr

/-- The descriptor of a slot in a pail header (R123, R271). -/
def attnSlot (k : Core) (hdr slot : Nat) : AttnSlot :=
  { lc := memNat k.mem (hdr + 64 * slot + 4) 4, first := memNat k.mem (hdr + 64 * slot + 8) 2 }

/-- The row q' whose fresh record an item at or beyond Lc is (R223). -/
def freshRow (rows : List AttnRow) (sl : AttnSlot) (it : WalkItem) : Option AttnRow :=
  rows.find? (fun r => r.head = it.head && r.slot = it.slot && r.token + sl.first = it.pos)

/-- A record's bytes: from cream, or from the fresh records. -/
def recordBytes (k : Core) (dhb fresh : Nat) (rows : List AttnRow) (sl : AttnSlot) (it : WalkItem) : Option (List Byte) :=
  if it.pos < sl.lc then some (memBytes k.mem (512 * it.line + 66 * dhb * it.rcd) (66 * dhb))
  else (freshRow rows sl it).map (fun r => memBytes k.mem (fresh + 66 * dhb * r.q) (66 * dhb))

/-- One row and query head over the items it may see: cached records first, then fresh ones (R127, R129). R127 names one partial state per
page, and R224 one place in STATE for a row and head: where a walk gives several pages of one slot they are folded into the one state
(DESIGN CHOICE, log entry 102). -/
def attnRow (k : Core) (f : FmtT) (dhb fresh hdr : Nat) (scale : Word32) (rows : List AttnRow) (items : List WalkItem)
    (r : AttnRow) (j : Nat) : Attn × List (Fin 4) :=
  let sl := attnSlot k hdr r.slot
  let mine := items.filter (fun it => it.slot = r.slot && it.head = r.head)
  let cached := mine.filter (fun it => it.pos < sl.lc)
  let fr := mine.filter (fun it => sl.lc ≤ it.pos && it.pos ≤ sl.first + r.token)
  (cached ++ fr).foldl (fun acc it =>
    match recordBytes k dhb fresh rows sl it with
    | none => acc
    | some bs =>
      let sc := attnScore k f dhb r.q j bs
      let v := kvValues f.wfmt.toNat dhb bs
      (attnStep scale acc.1 sc.1 v.1, acc.2 ++ sc.2 ++ v.2))
    ({ o := List.replicate (32 * dhb) (0, 0) }, [])

/-- Pairs written from element e of the span of both tiles on. -/
def Core.putSpan (k : Core) (b : Bool) (e : Nat) : List (Word32 × Word32) → Core
  | [] => k
  | p :: ps => (k.putPair (if e < 4096 then b else !b) (e % 4096) p).putSpan b (e + 1) ps

/-- A row and head's results: o to the span, m and l to the STATE area (R224). -/
def Core.putAttn (k : Core) (f : FmtT) (dhb state q j : Nat) (x : Attn) : Core :=
  let a := state + 12 * (2048 / (32 * dhb) * q + j)
  let k1 := k.putSpan (f.tile = 1) (4 * f.feat.toNat + 2048 * q + 32 * dhb * j) x.o
  k1.putBytes a (leBytes 4 (enc32 x.m).toNat ++ leBytes 4 x.l.1.toNat ++ leBytes 4 x.l.2.toNat)

/-- The fresh records merged into their lines (R136, R223), those at or past the limit suppressed (R134). -/
def Core.mergeFresh (k : Core) (dhb fresh hdr limit : Nat) (rows : List AttnRow) (items : List WalkItem) : Core :=
  items.foldl (fun acc it =>
    let sl := attnSlot k hdr it.slot
    if it.pos < sl.lc || limit ≤ it.pos then acc
    else
      match freshRow rows sl it with
      | none => acc
      | some r =>
        let bs := memBytes k.mem (fresh + 66 * dhb * r.q) (66 * dhb)
        acc.putBytes (512 * it.line + 66 * dhb * it.rcd) bs) k

/-- The streams whose fresh write was suppressed: the ladle ends them with LENGTH (R134). -/
def State.suppressed (s : State) (c : CoreId) (v : VatId) (hdr limit : Nat) (rows : List AttnRow) (items : List WalkItem) : State :=
  let k := s.core c
  items.foldl (fun acc it =>
    let sl := attnSlot k hdr it.slot
    if sl.lc ≤ it.pos && limit ≤ it.pos && (freshRow rows sl it).isSome then
      match toFin? 1024 (memNat k.mem (hdr + 64 * it.slot) 2) with
      | some st =>
        match acc.stream v st with
        | some x => acc.setStream v st { x with atLimit := true }
        | none => acc
      | none => acc
    else acc) s

/-- The scratchpad ranges that a MACA reads: its walk output, the header when it has items, and the fresh record of every row that
some item names (R223). -/
def macaReads (k : Core) (j : MacJob) (dhb : Nat) : List (Nat × Nat) :=
  let items := (upTo (leAt j.head 0 4)).map (fun i => walkItem (memNat k.mem (j.walk + 32 + 8 * i) 8))
  let hdr := leAt j.head 24 4
  let rows := attnRows j.head j.f.tok.toNat
  let fresh := items.filterMap (fun it =>
    let sl := attnSlot k hdr it.slot
    if it.pos < sl.lc then none else (freshRow rows sl it).map (fun r => (leAt j.head 4 4 + 66 * dhb * r.q, 66 * dhb)))
  (j.walk, 32 + 8 * items.length) :: (if items.isEmpty then [] else [(hdr, 256)]) ++ fresh
/-- The STATE words that a MACA writes: three for each valid row and query head (R224). -/
def macaWrites (j : MacJob) (dhb : Nat) : List (Nat × Nat) :=
  (attnRows j.head j.f.tok.toNat).map (fun r =>
    (leAt j.head 28 4 + 12 * (2048 / (32 * dhb) * r.q), 12 * (j.f.count.toNat % 64 + 1)))

/-- MACA's work over its walk output, once it is the running instruction. -/
def State.sweepMaca (s0 : State) (c : CoreId) (v : VatId) (j : MacJob) : State :=
  let k0 := s0.core c
  let f := j.f
  let site : Site := ⟨c, j.thread⟩
  let dhb := s0.vfld v .kvConf 26 23
  let h := f.count.toNat % 64 + 1
  let items := (upTo (leAt j.head 0 4)).map (fun i => walkItem (memNat k0.mem (j.walk + 32 + 8 * i) 8))
  let fresh := leAt j.head 4 4
  let hdr := leAt j.head 24 4
  let state := leAt j.head 28 4
  let rows := attnRows j.head f.tok.toNat
  let limit := s0.vfld v .kvLimit 16 0
  let lines := (items.map (fun it => it.line)).dedup.map (fun l => (512 * l, 512))
  let reads := macaReads k0 j dhb
  if (reads ++ macaWrites j dhb).any (fun p => !k0.inSpm p.1 p.2) then (s0.markSwept c).threadFaultAt site j.pc .address
  else if items.any (fun it => it.line < k0.wb || 3071 < it.line) then (s0.markSwept c).threadFaultAt site j.pc .vatfault
  else if (lines ++ reads).any (fun p => k0.doubleAt p.1 p.2) then s0.sweepFatal c j
  else
    let s := (lines ++ reads).foldl (fun u p => u.readCounted c p.1 p.2) s0
    let k := s.core c
    let res := rows.flatMap (fun r => (upTo h).map (fun q => (r, q, attnRow k f dhb fresh hdr
      (BitVec.ofNat 32 (s.vfld v .kvQkScale 31 0)) rows items r q)))
    let k1 := res.foldl (fun acc p => acc.putAttn f dhb state p.1.q p.2.1 p.2.2.1) k
    let k2 := k1.mergeFresh dhb fresh hdr limit rows items
    let s1 := ((s.setCore c k2).markSwept c).raiseAll c (res.flatMap (fun p => p.2.2.2))
    s1.suppressed c v hdr limit rows items

/-! ## The MAC queue (R73) -/

/-- The running instruction of a core begins: a MAC on its own cream or a multicast with its span, a receiver with its
sender, a MACA on its walk. -/
def State.startMac (s : State) (c : CoreId) : State :=
  match (s.core c).macRun with
  | none => s
  | some j =>
    if j.swept then s
    else if j.attention then
      (match s.vatOf c with
       | some v => s.sweepMaca c v j
       | none => s.markSwept c)
    else if j.f.src.toNat < 8 then s.sweepOwn c j
    else
      match s.senderOf c j.f.src.toNat with
      | none => s
      | some x =>
        match (s.core x).macRun with
        | some g => s.sweepOwn x g
        | none => s

/-- A job taken into the MAC queue; it begins at once when the array is idle. -/
def State.enqueueMac (s : State) (c : CoreId) (j : MacJob) : State :=
  let k := s.core c
  match k.macRun with
  | none => (s.setCore c { k with macRun := some j }).startMac c
  | some _ => s.setCore c { k with macWait := some j }

/-- The MAC queue is full, a target tile is being read, or a move of the thread's own writes a tile or the activation buffer that the
instruction names: the thread is not ready (R73, R76, R225). -/
def macHold (k : Core) (t : Fin 16) (ts : List Bool) (buf : Bool) : Bool :=
  (k.macRun.isSome && k.macWait.isSome) || ts.any k.tileRead || k.movesInto t ts (some buf)

/-- A completed instruction leaves the array, hand-offs that waited for its buffer land (R74), and the waiting one begins. One that
waits for its weight-bus span, or whose region's clock is stopped, goes on running. -/
def completeMac (s : State) (c : CoreId) (attention : Bool) : Result :=
  let k := s.core c
  match k.macRun with
  | some j =>
    if j.attention == attention && j.swept && s.regionRuns (regionOf c) then
      .next (((s.setCore c { k with macRun := k.macWait, macWait := none }).landReleased
        c).startMac c)
    else .next s
  | none => .next s

/-! ## The instructions -/

/-- The span of a multicast leaves the region (R69). -/
def State.spanLeaves (s : State) (c : CoreId) (f : FmtT) : Bool :=
  let src := f.src.toNat
  decide (1 ≤ src) && decide (src ≤ 4) && (spanPos (s.posOf c) (src - 1) f.span.toNat).isNone

/-- MAC's checks (R86, R217). -/
def macChecks (s : State) (t : Site) (f : FmtT) : List (Bool × Status) :=
  let src := f.src.toNat
  let mc := decide (1 ≤ src) && decide (src ≤ 4)
  [((decide (5 ≤ src) && decide (src ≤ 7)) || decide (12 ≤ src) || (mc && f.span = 0) || (!mc && f.span ≠ 0)
      || (decide (8 ≤ src) && f.line ≠ 0), .illegal),
   ((macPath f.wfmt.toNat f.afmt.toNat f.cls.toNat).isNone, .format),
   (decide (3072 < f.line.toNat + f.count.toNat + 1) || decide (macF f = 0) || decide (1024 < f.feat.toNat + macF f)
      || s.spanLeaves t.core f, .address)]

/-- MAC: a weight sweep into the MAC queue; it takes the thread's solder arming (R73, R216 to R219). -/
def execMac (t : Site) (f : FmtT) (s : State) : Result :=
  let h := s.thread t
  let k := s.core t.core
  let j : MacJob := { thread := t.thread, pc := h.pc, f := f, solder := h.solder }
  issue s t (macHold k t.thread [decide (f.tile = 1)] (f.buf = 1)
      || (j.solderRanges k).any (fun p => k.heldByMove t.thread false p.1 p.2)) true (macChecks s t f)
    (fun u => (u.modThread t (fun x => { x with solder := none })).enqueueMac t.core j)

/-- MAC_COMPLETE: the running MAC makes its last update; its tile is no longer busy and the waiting instruction begins (R73). -/
def execMacComplete (c : CoreId) (s : State) : Result := completeMac s c false

/-- MACA's checks (R221, R224). -/
def macaChecks (s : State) (t : Site) (f : FmtT) : List (Bool × Status) :=
  let k := s.core t.core
  let a := ((s.thread t).sreg (f.line.setWidth 5)).toNat
  let conf := match s.vatOf t.core with
    | some v => s.vreg v .kvConf
    | none => 0
  let dhb := fld conf 26 23
  [(decide (32 ≤ f.line.toNat) || decide (64 ≤ f.count.toNat) || f.src ≠ 0 || f.span ≠ 0, .illegal),
   (f.cls ≠ 0 || decide (f.wfmt.toNat ≠ fld conf 15 12) || (f.afmt ≠ 3 && f.afmt ≠ 4), .format),
   (decide (a % 32 ≠ 0) || !k.inSpm a 32 || decide (2048 / (32 * dhb) < f.count.toNat + 1)
      || decide (8192 < 4 * f.feat.toNat + 2048 * (f.tok.toNat + 1)), .address)]

/-- MACA: the attention form; it reads the first 32 bytes of its walk output at issue (R221 to R224). -/
def execMaca (t : Site) (f : FmtT) (s : State) : Result :=
  let h := s.thread t
  let k := s.core t.core
  let a := (h.sreg (f.line.setWidth 5)).toNat
  let j : MacJob := { thread := t.thread, pc := h.pc, f := f, attention := true, walk := a, head := memBytes k.mem a 32 }
  let dhb := match s.vatOf t.core with
    | some v => s.vfld v .kvConf 26 23
    | none => 0
  issue s t (macHold k t.thread j.tiles (f.buf = 1) || k.heldByMove t.thread false a 32
      || (macaReads k j dhb).any (fun p => k.heldByMove t.thread false p.1 p.2)
      || (macaWrites j dhb).any (fun p => k.heldByMove t.thread true p.1 p.2)) true (macaChecks s t f)
    (fun u => if k.doubleAt a 32 then s.dataFault t else (u.readCounted t.core a 32).enqueueMac t.core j)

/-- MACA_COMPLETE: the last m and l write is made and the tiles of the span are no longer busy (R224). -/
def execMacaComplete (c : CoreId) (s : State) : Result := completeMac s c true

/-- TCLR: both planes of a tile become +0.0; it waits while the tile is busy or being read (R220). -/
def execTclr (t : Site) (f : FmtT) (s : State) : Result :=
  let k := s.core t.core
  let b := decide (f.tile = 1)
  issue s t (k.tileBusy b || k.tileRead b || k.movesInto t.thread [b] none) true
    [(f.line ≠ 0 || f.count ≠ 0 || f.wfmt ≠ 0 || f.afmt ≠ 0 || f.cls ≠ 0 || f.buf ≠ 0 || f.tok ≠ 0 || f.feat ≠ 0
        || f.src ≠ 0 || f.span ≠ 0, .illegal)]
    (fun u => u.modCore t.core (fun x => { x with mem := memClear x.mem (tileBase b) (tileBase b + 0x8000) }))

/-- A solder descriptor's four words: a stream address, or none for 0xFFFF_FFFF. -/
def solderWords (k : Core) (a : Nat) : List (Option Nat) :=
  (upTo 4).map (fun i =>
    let w := memNat k.mem (a + 4 * i) 4
    if w = 0xFFFFFFFF then none else some w)

/-- SOLDER: arms the thread with the streams of a solder descriptor, copied at issue (R219). -/
def execSolder (t : Site) (f : FmtT) (s : State) : Result :=
  let k := s.core t.core
  let a := ((s.thread t).sreg (f.line.setWidth 5)).toNat
  let ws := solderWords k a
  issue s t (k.heldByMove t.thread false a 16) true
    [(decide (32 ≤ f.line.toNat) || f.count ≠ 0 || f.wfmt ≠ 0 || f.afmt ≠ 0 || f.cls ≠ 0 || f.buf ≠ 0 || f.tok ≠ 0
        || f.tile ≠ 0 || f.feat ≠ 0 || f.src ≠ 0 || f.span ≠ 0, .illegal),
     (decide (a % 16 ≠ 0) || !k.inSpm a 16 || ws.any (fun w => w.any (fun x => !k.inSpm x 4)), .address)]
    (fun u =>
      if k.doubleAt a 16 then s.dataFault t
      else (u.readCounted t.core a 16).modThread t (fun h => { h with solder := some ws }))

end Sys2Proof.Machine
end

