-- ==== Sys2Proof/Machine/ConfReg.lean ====
section
/-! DEFINITION. Registers whose writes are checked: KV registers (R117, R131, R142), counters (R171, R173, R181), presses (R241), prefill
settings (R256), variants (R275), shares (R161, R167, R256), thermal thresholds (R384), the assay policy (R357) and the ladle's
settings (R281). A refused or ignored write has no effect beyond its flag (R400). In each operation lanes marks the bits that the
write reaches (R316). -/

namespace Sys2Proof.Machine

/-- All 64 bits. -/
def allLanes : Nat := maskOf 63 0
/-- What the plain fields of a register become under a write. -/
def State.merged (s : State) (r : Reg) (value : Word64) (lanes : Nat) : Word64 := writeWord (s.getReg r) value (rwMask r) 0 lanes
/-- A write that nothing restrains: plain fields and fields cleared by 1 (R6, R7). -/
def State.plainWrite (s : State) (r : Reg) (value : Word64) (lanes : Nat) : State :=
  s.setReg r (writeWord (s.getReg r) value (rwMask r) (w1cMask r) lanes)
/-- A write reaches a bit. -/
def reaches (lanes i : Nat) : Bool := lanes / 2 ^ i % 2 == 1

/-! ## KV registers (R117, R131, R142) -/

/-- The fields of KV_CONF lie in their ranges. -/
def confGood (c : Word64) : Bool :=
  1 ≤ fld c 7 0 && 1 ≤ fld c 11 8 && (fld c 15 12 = 3 || fld c 15 12 = 4) && 1 ≤ fld c 22 16 && fld c 22 16 ≤ 64
    && 1 ≤ fld c 26 23 && fld c 26 23 ≤ 8
/-- A KV_STAGE entry with VALID = 1 meets R117 under a KV_CONF; the stage itself is known once an ingot is loaded. -/
def stageGood (c w : Word64) (info : Option StageInfo) : Bool :=
  let u := fld w 19 12
  let r := fld w 27 20
  let g := fld w 39 28
  !bitAt w 40
    || (1 ≤ u && 1 ≤ r && 1 ≤ g && r * (66 * fld c 26 23) ≤ 512 * u && 64 * fld c 22 16 ≤ g * r
      && fld w 11 0 + u * ceilDiv (fld c 63 40) (fld c 7 0) ≤ 3072
      && (match info with
          | some x => fld c 7 0 * g ≤ x.cores.length && x.maxWb ≤ fld w 11 0
          | none => true))
/-- Every KV_STAGE entry of a vat meets R117 under a KV_CONF. -/
def State.stagesGood (s : State) (v : VatId) (c : Word64) : Bool :=
  (allFin 256).all (fun n => stageGood c (s.vreg v (.kvStage n)) (s.kvStages v)[n.val]?)
/-- KV_ROT's PAIRS lies in its range and rotates no more than a head (R131). -/
def rotGood (c rot : Word64) : Bool := fld rot 8 1 ≤ 128 && 2 * fld rot 8 1 ≤ 32 * fld c 26 23
/-- Some stream of the vat holds pages or a reservation in cream. -/
def State.holdsPages (s : State) (v : VatId) : Bool :=
  (s.vat v).streams.any (fun e => e.2.reserved ≠ 0 || e.2.pages.any (fun p => !p.skimmed))
/-- Two KV_CONF words number pages alike: GROUPS, PAGES, HEADS, DH_BLOCKS and FMT agree. -/
def sameGeometry (a b : Word64) : Bool :=
  fld a 7 0 = fld b 7 0 && fld a 15 12 = fld b 15 12 && fld a 22 16 = fld b 22 16 && fld a 26 23 = fld b 26 23
    && fld a 63 40 = fld b 63 40
/-- KV_CONF.REFUSED set. -/
def State.refuseKv (s : State) (v : VatId) : State := s.putV v .kvConf 27 27 1

/-- A write of a KV register: it takes effect, or is ignored and sets KV_CONF.REFUSED (R142). -/
def State.writeKv (s : State) (v : VatId) (r : VatReg) (value : Word64) (lanes : Nat) : State :=
  let old := s.vreg v r
  let new_ := s.merged (.vat v r) value lanes
  let conf := s.vreg v .kvConf
  let go (good : Bool) : State := if s.issuesNothing v && good then s.plainWrite (.vat v r) value lanes else s.refuseKv v
  match r with
  | .kvConf =>
    if new_ = old then s.plainWrite (.vat v r) value lanes
    else go (confGood new_ && s.stagesGood v new_ && rotGood new_ (s.vreg v .kvRot)
      && (sameGeometry old new_ || !s.holdsPages v))
  | .kvLimit => go (1 ≤ fld new_ 16 0 && fld new_ 16 0 ≤ 65536)
  | .kvStage n => go (stageGood conf new_ (s.kvStages v)[n.val]? && (decide (new_ = old) || !s.holdsPages v))
  | .kvRot => go (rotGood conf new_)
  | .kvQkScale => go true
  | .kvListbase => go true
  | .kvSkimbase => go true
  | .kvRotFreq _ => go true
  | _ => s

/-- KV_REGISTER_WRITE: a 64-bit write of a KV register (R142). -/
def execKvRegisterWrite (v : VatId) (r : VatReg) (value : Word64) (s : State) : Result :=
  if s.hostReady then .next (s.writeKv v r value allLanes) else .next s

/-! ## Counter registers (R173, R181) -/

/-- The rectangle words of a vat's other counters that send NOTIFY. -/
def State.otherRects (s : State) (v : VatId) (i : Vid) : List Word64 :=
  s.regs.filterMap (fun p =>
    match p.1 with
    | .vat u (.ctr j 1) => if u = v ∧ j ≠ i ∧ bitAt p.2 36 then some p.2 else none
    | _ => none)
/-- A rectangle word holds a core. -/
def rectHas (w : Word64) (x y : Nat) : Bool := fld w 8 0 ≤ x && x ≤ fld w 17 9 && fld w 26 18 ≤ y && y ≤ fld w 35 27
/-- A region is one that a rectangle word reaches into. -/
def rectReaches (w : Word64) (r : Region) : Bool :=
  fld w 8 0 / 31 ≤ r.val % 16 && r.val % 16 ≤ fld w 17 9 / 31 && fld w 26 18 / 32 ≤ r.val / 16 && r.val / 16 ≤ fld w 35 27 / 32
/-- A rectangle lies in one half: the given one, or either where the counter has no place yet. -/
def rectInHalf (w : Word64) : Option Half → Bool
  | some h => (allFin 192).all (fun r => !rectReaches w r || halfOf r == h)
  | none => (allFin 192).all (fun r => !rectReaches w r || halfOf r == .north) || (allFin 192).all (fun r => !rectReaches w r || halfOf r == .south)
/-- A rectangle meets R173: it lies in the vat's regions and in the counter's half, and no core is then in more than 64 that send
NOTIFY. -/
def State.rectGood (s : State) (v : VatId) (i : Vid) (w : Word64) : Bool :=
  let x0 := fld w 8 0
  let x1 := fld w 17 9
  let y0 := fld w 26 18
  let y1 := fld w 35 27
  let others := s.otherRects v i
  x0 ≤ x1 && x1 < 496 && y0 ≤ y1 && y1 < 384
    && (allFin 192).all (fun r => !rectReaches w r || s.holds v r)
    && rectInHalf w ((s.syncMap v i).map Prod.fst)
    && (!bitAt w 36 || others.length < 64
      || (upTo (x1 + 1 - x0)).all (fun dx => (upTo (y1 + 1 - y0)).all (fun dy =>
        others.countP (fun o => rectHas o (x0 + dx) (y0 + dy)) < 64)))

/-- The loader's words of a counter, which a vat reset restores (R171). -/
def State.noteLoaded (s : State) (v : VatId) (i : Vid) (w : Fin 2) : State :=
  let c := s.ctr v i
  let x := s.vreg v (.ctr i w)
  { s with ctrs := kset s.ctrs (v, i) (if w = 0 then { c with loaded0 := putFld x 33 33 0 } else { c with loaded1 := x }) }

/-- Physical counters of a vat after its map has changed: an entry belongs to the vat that maps it, the first where two do (R172, log
entry 85). -/
def State.claimEntry (s : State) (v : VatId) (i : Vid) (old : Option (Half × Nat)) : State :=
  let kept : Bool := match old with
    | some p => s.regs.any (fun e => match e.1 with
        | .vat u (.syncMap j) => u = v && s.syncMap v j == some p
        | _ => false)
    | none => true
  let s1 := match old with
    | some p => if !kept && kfind s.ctrVat p == some v then { s with ctrVat := kdel s.ctrVat p } else s
    | none => s
  match s1.syncMap v i with
  | some p => if (kfind s1.ctrVat p).isNone then { s1 with ctrVat := kset s1.ctrVat p v } else s1
  | none => s1

/-- A write of VAT_SYNC_MAP: one that would put the counter into another half than its NOTIFY rectangle is ignored, for R173 would not
hold of it (log entry 56). -/
def State.writeSync (s : State) (v : VatId) (i : Vid) (value : Word64) (lanes : Nat) : State :=
  let u := s.plainWrite (.vat v (.syncMap i)) value lanes
  let w := s.vreg v (.ctr i 1)
  match u.syncMap v i with
  | some (h, _) => if bitAt w 36 && !rectInHalf w (some h) then s else u.claimEntry v i (s.syncMap v i)
  | none => u.claimEntry v i (s.syncMap v i)

/-- A write of a counter register: ignored while the vat issues instructions, and so is a write of PARTICIPANTS = 0 or of a
rectangle that breaks R173 (R181). The contents of VAT_CTR stay with the virtual id when its VAT_SYNC_MAP entry is rewritten: the spec
does not say whether they follow the physical entry (DESIGN CHOICE, log entry 86). -/
def State.writeCtr (s : State) (v : VatId) (r : VatReg) (value : Word64) (lanes : Nat) : State :=
  if !s.issuesNothing v then s
  else
    match r with
    | .syncMap i => s.writeSync v i value lanes
    | .ctr j w =>
      let i := s.sameEntry v j
      let new_ := s.merged (.vat v (.ctr i w)) value lanes
      let bad : Bool := if w = 0 then reaches lanes 34 && fld new_ 49 34 = 0 else !s.rectGood v i new_
      if bad then s
      else
        let u := s.plainWrite (.vat v (.ctr i w)) value lanes
        if s.vstate v ≤ 1 then u.noteLoaded v i w else u
    | _ => s

/-- COUNTER_REGISTER_WRITE: a 64-bit write of VAT_SYNC_MAP or VAT_CTR (R181). -/
def execCounterRegisterWrite (v : VatId) (r : VatReg) (value : Word64) (s : State) : Result :=
  if s.hostReady then .next (s.writeCtr v r value allLanes) else .next s

/-! ## Presses (R241, R256) -/

/-- A side of a press assignment allows the change: the vat is paused with no pass in progress. -/
def State.pressFree (s : State) (w : Word64) : Bool :=
  !bitAt w 6 ||
  match toFin? 64 (fld w 5 0) with
  | some v => s.vfld v .vatPrefill 18 18 = 1 && (s.vat v).pass.isNone
  | none => true
/-- A vat whose press set changes has no press copy until the loader has rewritten it (R241). -/
def State.uncopied (s : State) (w : Word64) : State :=
  match toFin? 64 (fld w 5 0) with
  | some v => if bitAt w 6 then s.modVat v (fun x => { x with copied := [] }) else s
  | none => s
/-- A write of GLB_PRESS_n: it changes the assignment only while both sides allow it. -/
def State.writePress (s : State) (n : Fin 96) (value : Word64) (lanes : Nat) : State :=
  let old := s.getReg (.glbPress n)
  let new_ := s.merged (.glbPress n) value lanes
  if new_ = old then s
  else if s.pressFree old && s.pressFree new_ then ((s.uncopied old).uncopied new_).setReg (.glbPress n) new_ else s
/-- GLB_PRESS_WRITE. -/
def execGlbPressWrite (n : Fin 96) (value : Word64) (s : State) : Result :=
  if s.barUp then .next (s.writePress n value allLanes) else .next s

/-- The ingot of a vat that is not FREE. -/
def State.loadedIngot (s : State) (v : VatId) : Option IngotTable := if s.vstate v = 0 then none else (s.vat v).ingot
/-- A write of VAT_PREFILL: a GROUP_TOKENS of 0, or above the loaded ingot's largest group, is refused. -/
def State.writePrefill (s : State) (v : VatId) (value : Word64) (lanes : Nat) : State :=
  let n := fld (s.merged (.vat v .vatPrefill) value lanes) 13 0
  let high := match s.loadedIngot v with
    | some g => decide (g.maxGroup < n)
    | none => false
  if reaches lanes 0 && (decide (n = 0) || high) then s.putV v .vatPrefill 19 19 1 else s.plainWrite (.vat v .vatPrefill) value lanes
/-- VAT_PREFILL_WRITE. -/
def execVatPrefillWrite (v : VatId) (value : Word64) (s : State) : Result :=
  if s.hostReady then .next (s.writePrefill v value allLanes) else .next s

/-! ## Ladle settings (R281, R301) -/

/-- The standby is told of the ladle's state after a host write (R301). -/
def State.tellLadle (s : State) (v : VatId) : State := if s.mirroring v then s.sendLadle v else s
/-- A write of VAT_LADLE: a WINDOW_US of 0 is ignored, and a PAIL_POS above the loaded ingot's is ignored and sets CMD_REFUSED. -/
def State.writeLadle (s : State) (v : VatId) (value : Word64) (lanes : Nat) : State :=
  let new_ := s.merged (.vat v .vatLadle) value lanes
  let high := match s.loadedIngot v with
    | some g => decide (g.pailPos < fld new_ 34 16)
    | none => false
  if high then s.refuseCmd v
  else if fld new_ 15 0 = 0 then s
  else (s.plainWrite (.vat v .vatLadle) value lanes).tellLadle v

/-- The words of a stack range. -/
def State.stackWords (s : State) (a n : Nat) : List Word32 := toWords (s.stackRead a (4 * n))
/-- The format fields of a recorded MAC instruction. -/
def MacShape.fmt (m : Sys2Proof.MacShape) : FmtT := { count := m.count, wfmt := m.wfmt, afmt := m.afmt }
/-- One instruction's stream in a slot keeps R277: its words are well formed, LINE offsets rise up to COUNT, F and K lie in range, each
weight lies in its line, the one with which its group is complete (log entry 96), and the entries number at most floor(W ÷ 64). -/
def streamGood (f : FmtT) (ws : List Word32) : Bool :=
  match solderParse f.count.toNat (macF f) (macK f.afmt.toNat) none none ws with
  | some es =>
    let gb := groupBytes f.wfmt.toNat
    es.length ≤ macF f * macK f.afmt.toNat / 64 && es.all (fun e =>
      let g := e.feat * macGroups f + e.k / 32
      512 * e.line / gb ≤ g && g < 512 * (e.line + 1) / gb)
  | none => false
/-- A core's slot keeps R276 and R277: it fits the staging area, and word j leads to instruction j's stream. -/
def State.slotGood (s : State) (a size : Nat) (sh : SolderShape) : Bool :=
  size ≤ sh.area && 4 * sh.macs.length ≤ size
    && ((upTo sh.macs.length).zip sh.macs).all (fun p =>
      let o := leAt (s.stackRead (a + 4 * p.1) 4) 0 4
      o % 4 = 0 && o < size && streamGood (MacShape.fmt p.2) (s.stackWords (a + o) ((size - o) / 4)))
/-- The loader's check of a variant's image at a stack address against an ingot (R276, R277): a read that fails fails the check. -/
def State.imageGood (s : State) (g : IngotTable) (base : Nat) : Bool :=
  stackRange base 2048 && !s.stackFails base 2048 && ((upTo g.stages.length).zip g.stages).all (fun p =>
    let e := leAt (s.stackRead (base + 8 * p.1) 8) 0 8
    let off := e % 2 ^ 40
    let size := 64 * (e / 2 ^ 40 % 2 ^ 16)
    let n := p.2.cores.length
    e / 2 ^ 56 = 0 && (decide (size = 0) || (off % 64 = 0 && stackRange (base + off) (n * size) && !s.stackFails (base + off) (n * size)
      && (upTo n).all (fun c => s.slotGood (base + off + c * size) size (p.2.solder.getD c {})))))
/-- A variant that a word of LADLE_VARIANT registers passes the loader's check against its vat's ingot. -/
def State.variantGood (s : State) (w : Word64) : Bool :=
  match toFin? 64 (fld w 6 1) with
  | some v => (s.vat v).ingot.any (fun g => s.imageGood g (fld w 54 7))
  | none => false
/-- A write of LADLE_VARIANT_v word 0: clearing VALID or changing BASE while streams use the variant is refused, and so is a
registration whose check under R276 and R277 fails or whose BASE is not a granule of the interleaved window (R275). -/
def State.writeVariant (s : State) (n : Fin 4096) (value : Word64) (lanes : Nat) : State :=
  let r : Reg := .ladleVariant n 0
  let old := s.getReg r
  let new_ := s.merged r value lanes
  let gone := bitAt old 0 && !bitAt new_ 0
  let moved := decide (fld old 54 7 ≠ fld new_ 54 7)
  let placed := decide (fld new_ 54 7 % 4096 = 0) && decide (fld new_ 54 7 < 1152000000000)
  if (s.rfld (.ladleVariant n 1) 10 0 ≠ 0 && (gone || moved))
    || (bitAt new_ 0 && decide (new_ ≠ old) && !(placed && s.variantGood new_)) then s.putR r 55 55 1
  else s.plainWrite r value lanes
/-- LADLE_VARIANT_WRITE: word 0 under its checks; word 1, USERS, is read only (R275). -/
def execLadleVariantWrite (n : Fin 4096) (w : Fin 2) (value : Word64) (s : State) : Result :=
  if s.hostReady && w = 0 then .next (s.writeVariant n value allLanes) else .next s

/-! ## Shares (R160, R161, R167, R256, R319) -/

/-- The nonzero weights in a word of shares. -/
def weightsIn (w : Word64) : Nat := (allFin 8).countP (fun i => fld w (8 * i.val + 7) (8 * i.val) ≠ 0)
/-- The nonzero weights of a port when one of its words is replaced. -/
def State.weightsWith (s : State) (p : SharedPort) (w : Fin 8) (x : Word64) : Nat :=
  ((allFin 8).map (fun k => weightsIn (if k = w then x else s.getReg (shareReg p k)))).foldl (· + ·) 0
/-- A write gives a seam port's weight to a vat that does not hold both of the port's regions. -/
def State.seamShareBad (s : State) (p : SharedPort) (w : Fin 8) (x : Word64) (lanes : Nat) : Bool :=
  match p with
  | .mesh q =>
    (match seamOf q with
     | some n => (allFin 8).any (fun i =>
         reaches lanes (8 * i.val) && fld x (8 * i.val + 7) (8 * i.val) ≠ 0 &&
           (match toFin? 64 (8 * w.val + i.val), toFin? 192 (80 + n.val), toFin? 192 (96 + n.val) with
            | some v, some a, some b => !(s.holds v a && s.holds v b)
            | _, _, _ => true))
     | none => false)
  | _ => false
/-- A write of a word of shares. -/
def State.writeShare (s : State) (p : SharedPort) (w : Fin 8) (value : Word64) (lanes : Nat) : State :=
  let new_ := s.merged (shareReg p w) value lanes
  if 16 < s.weightsWith p w new_ || s.seamShareBad p w new_ lanes then s else s.setReg (shareReg p w) new_
/-- The registers of a port's shares take writes: those of the mesh wait for READY (R340). -/
def State.shareOpen (s : State) (p : SharedPort) : Bool :=
  match p with
  | .mesh _ => s.hostReady
  | _ => s.barUp
/-- SHARE_WEIGHT_WRITE. -/
def execShareWeightWrite (p : SharedPort) (w : Fin 8) (value : Word64) (s : State) : Result :=
  if s.shareOpen p then .next (s.writeShare p w value allLanes) else .next s

/-! ## Thermal thresholds and the assay policy (R357, R359, R384) -/

/-- A write of THERM_CTRL: a THROTTLE_AT above 0xBE is held there, one below 0xA0 is not valid and is ignored (log entry 30), and so is
a RELEASE_AT that is not at least 4 below THROTTLE_AT. -/
def State.writeThermCtrl (s : State) (value : Word64) (lanes : Nat) : State :=
  let new_ := s.merged .thermCtrl value lanes
  let at_ := min (fld new_ 7 0) 0xBE
  if fld new_ 7 0 < 0xA0 || at_ < fld new_ 15 8 + 4 then s else s.setReg .thermCtrl (putFld new_ 7 0 at_)
/-- THERM_CTRL_WRITE. -/
def execThermCtrlWrite (value : Word64) (s : State) : Result :=
  if s.barUp then .next (s.writeThermCtrl value allLanes) else .next s

/-- A write of ASSAY_POLICY: REQUIRE is set; a write of 0 is ignored. -/
def State.writePolicy (s : State) (value : Word64) (lanes : Nat) : State :=
  if reaches lanes 0 && bitAt value 0 then s.putR .assayPolicy 0 0 1 else s
/-- ASSAY_POLICY_WRITE. -/
def execAssayPolicyWrite (value : Word64) (s : State) : Result :=
  if s.barUp then .next (s.writePolicy value allLanes) else .next s

end Sys2Proof.Machine
end

