-- ==== Sys2Proof/Machine/Dma.lean ====
section
/-! DEFINITION. The DMA engine: DMA, WALK, the start and completion of descriptors, remote timeouts and tags (R82, R83, R124,
R228 to R232, R249, R296 to R299, R401). A transfer inside the module moves its bytes at completion (log entry 12). -/

namespace Sys2Proof.Machine

/-! ## Address words (R229, R296) -/

def kindOf (w : Word64) : Nat := fld w 3 0
/-- An address word of an unknown KIND or with a nonzero reserved bit. -/
def badWord (w : Word64) : Bool :=
  match kindOf w with
  | 0 => fld w 63 26 ≠ 0
  | 1 => fld w 63 44 ≠ 0
  | 2 => fld w 63 52 ≠ 0
  | 3 => bitAt w 20 && decide (fld w 63 62 ≠ 0)
  | _ => true
/-- The local address of a KIND 0 word, and of a KIND 1 word. -/
def addr0 (w : Word64) : Nat := fld w 25 4
def addr1 (w : Word64) : Nat := fld w 43 22
/-- The core of a KIND 1 word. -/
def core1 (w : Word64) : Option CoreId := coreOf (fld w 12 4) (fld w 21 13)
/-- The stack address of a KIND 2 word. -/
def addr2 (w : Word64) : Nat := fld w 51 4
/-- The device of a KIND 3 word. -/
def dev3 (w : Word64) : BitVec 16 := BitVec.ofNat 16 (fld w 19 4)
/-- The remote vat of a KIND 3 word. -/
def vat3 (w : Word64) : VatId := ⟨fld w 26 21, by simp only [fld]; omega⟩
/-- The pairings of R401. -/
def pairing (a b : Nat) : Bool :=
  [(0, 0), (0, 1), (1, 0), (0, 2), (2, 0), (0, 3), (2, 3), (3, 0), (3, 2)].contains (a, b)
/-- A KIND 3 word o bytes further on (R296). -/
def advance3 (w : Word64) (o : Nat) : Word64 :=
  if bitAt w 20 then putFld w 61 27 (fld w 61 27 + o / 64) else putFld w 63 45 (fld w 63 45 + o / 8)

/-! ## Issue -/

/-- A descriptor read from its 32 bytes (R228, R232). -/
def descOf (k : Core) (a : Nat) (walk : Bool) : Desc :=
  let fl := memNat k.mem (a + 20) 2
  { src := w64 (memNat k.mem a 8), dst := w64 (memNat k.mem (a + 8) 8), length := memNat k.mem (a + 16) 4,
    fence := fl % 2 = 1, signal := fl / 2 % 2 = 1, loader := fl / 4 % 2 = 1, vid := memNat k.mem (a + 22) 2 % 4096,
    addVal := memNat k.mem (a + 24) 2, statusAddr := memNat k.mem (a + 28) 4, isWalk := walk }

/-- The issue checks on a descriptor (R230, R232). The id of a remote write's SIGNAL names a counter of the remote vat, so the
sender's map does not judge it (R297); LENGTH is not a walk's. -/
def descChecks (s : State) (t : Site) (a : Nat) (walk : Bool) : List (Bool × Status) :=
  let k := s.core t.core
  let d := descOf k a walk
  let ok := a % 32 = 0 && k.inSpm a 32
  let remote := !walk && decide (kindOf d.dst = 3)
  [(ok && ((!walk && (badWord d.src || badWord d.dst)) || decide (memNat k.mem (a + 26) 2 ≠ 0)
      || decide (8 ≤ memNat k.mem (a + 20) 2)), .illegal),
   (ok && d.signal && ((!remote && s.badVid t.core (BitVec.ofNat 12 d.vid)) || decide (d.addVal = 0)), .counter),
   (ok && !walk && decide (d.length = 0), .empty),
   (!ok || (decide (d.statusAddr ≠ 0) && (decide (d.statusAddr % 4 ≠ 0) || !k.inSpm d.statusAddr 4)), .address)]

/-- A descriptor enters the queue; the thread is not ready while it holds 32 (R82). -/
def enqueueDesc (t : Site) (f : FmtX) (walk : Bool) (s : State) : Result :=
  let k := s.core t.core
  let a := ((s.thread t).sreg f.src).toNat
  issue s t (decide (32 ≤ k.dmaQ.length) || k.heldByMove t.thread false a 32) true
    ((f.dst ≠ 0 || f.len ≠ 0 || f.cls ≠ 0 || f.vc ≠ 0 || f.opw ≠ 0 || f.mc ≠ 0 || f.mdir ≠ 0 || f.mspan ≠ 0 || f.flow ≠ 0
        || f.rot ≠ 0 || f.rsv ≠ 0, Status.illegal) :: descChecks s t a walk)
    (fun u =>
      if k.doubleAt a 32 then s.dataFault t
      else
        let u1 := (u.readCounted t.core a 32).modCore t.core (fun x =>
          { x with dmaQ := x.dmaQ ++ [{ descOf k a walk with uid := s.seq }] })
        { u1 with seq := u1.seq + 1 })

/-- DMA: copies the descriptor into the queue (R230). -/
def execDma (t : Site) (f : FmtX) (s : State) : Result := enqueueDesc t f false s
/-- WALK: copies the walk descriptor into the queue (R232). -/
def execWalk (t : Site) (f : FmtX) (s : State) : Result := enqueueDesc t f true s

/-! ## Checks before any byte moves (R83) -/

/-- A local range of a descriptor that is not loader-class. -/
def localFault (k : Core) (write : Bool) (a n : Nat) : Option Status :=
  match k.reach a n with
  | none => some .address
  | some .ctrl => some .protect
  | some .cream => if write && decide (a < 512 * k.wb) then some .protect else none
  | some _ => none

/-- A range in another core of the vat. A write travels as messages, to an address aligned to 64 B and in whole words (R145). -/
def farFault (k : Core) (write : Bool) (a n : Nat) : Option Status :=
  if write && (decide (a % 64 ≠ 0) || decide (n % 4 ≠ 0)) then some .address
  else
    match (if write then spaceOf 8 a n else k.reach a n) with
    | none => some .address
    | some .ctrl => some .protect
    | some _ => none

/-- One side of a descriptor: its fault when checked before the transfer. -/
def sideFault (s : State) (c : CoreId) (write : Bool) (w : Word64) (n : Nat) : Option Status :=
  match kindOf w with
  | 0 => localFault (s.core c) write (addr0 w) n
  | 1 =>
    match core1 w with
    | some x => farFault (s.core x) write (addr1 w) n
    | none => none
  | 2 => if stackRange (addr2 w) n then none else some .address
  | _ => none

/-- The packet head of a remote descriptor; TAG is zero in a WRITE (R287). -/
def remotePacket (s : State) (v : VatId) (d : Desc) (w : Word64) (ty : BitVec 8) : Packet :=
  { ty := ty, srcDev := s.deviceId, dstDev := dev3 w, srcVat := v, dstVat := vat3 w, tag := if ty = 1 then 0 else BitVec.ofNat 16 d.ptag,
    addr := w }

/-- A remote descriptor names this module or finds no route (R294). -/
def noRoute (s : State) (v : VatId) (d : Desc) (w : Word64) : Bool :=
  dev3 w = s.deviceId || (s.routeOf (remotePacket s v d w 1)).isNone

/-- The status of a descriptor that fails its checks. -/
def descFault (s : State) (c : CoreId) (v : VatId) (d : Desc) : Option Status :=
  if d.loader then some .protect
  else if !pairing (kindOf d.src) (kindOf d.dst) then some .address
  else
    firstFault [((sideFault s c false d.src d.length) = some .address || (sideFault s c true d.dst d.length) = some .address
        || (kindOf d.src = 3 && noRoute s v d d.src) || (kindOf d.dst = 3 && noRoute s v d d.dst), .address),
      ((sideFault s c false d.src d.length) = some .protect || (sideFault s c true d.dst d.length) = some .protect, .protect)]

/-- A KIND 1 word names a core outside the vat (R149, R230). -/
def outsideVat (s : State) (v : VatId) (w : Word64) : Bool :=
  kindOf w = 1 &&
  match core1 w with
  | some x => !s.holds v (regionOf x)
  | none => true
/-- A KIND 1 read whose source lies in the other half: the seam carries no such request (R18). -/
def readsOverSeam (c : CoreId) (d : Desc) : Bool :=
  kindOf d.src = 1 &&
  match core1 d.src with
  | some x => halfOf (regionOf x) != halfOf (regionOf c)
  | none => false

/-- A KIND 1 write whose destination lies in the other half (R20). -/
def writesOverSeam (c : CoreId) (d : Desc) : Bool :=
  kindOf d.dst = 1 &&
  match core1 d.dst with
  | some x => halfOf (regionOf x) != halfOf (regionOf c)
  | none => false

/-! ## Start -/

/-- LINK_TIMEOUT in ticks, as a window that starts now has it (R52, R299). -/
def State.remoteWindow (s : State) (v : VatId) : Nat := s.winTicks (1000 * s.vfld v .linkTimeout 15 0)

/-- The place of the first byte of a range that a read does not deliver. -/
def firstBad (n : Nat) (bad : Nat → Bool) : Nat := ((upTo n).find? bad).getD n

/-- The bytes of a source, and whether all of them were delivered: a double-bit error stops the transfer there. -/
def sourceOf (s : State) (c : CoreId) (w : Word64) (n : Nat) : List Byte × Bool :=
  let loc (x : CoreId) (a : Nat) :=
    let k := s.core x
    let m := if k.eccDouble.isEmpty then n else firstBad n (fun i => k.doubleAt (a + i) 1)
    ((s.readLocal x a n).take m, decide (m = n))
  match kindOf w with
  | 0 => loc c (addr0 w)
  | 1 => match core1 w with
    | some x => loc x (addr1 w)
    | none => ([], false)
  | _ =>
    let a := addr2 w
    let m := if s.stackFails a n then firstBad n (fun i => s.stackFails (a + i) 1) else n
    (s.stackRead a m, decide (m = n))

/-- The core that delivers a source's bytes, and the address there, none for another source. -/
def sourceCore (c : CoreId) (w : Word64) : Option (CoreId × Nat) :=
  match kindOf w with
  | 0 => some (c, addr0 w)
  | 1 => (core1 w).map (fun x => (x, addr1 w))
  | _ => none
/-- What a read of a source leaves: single-bit errors in what it delivered are counted (R24, R66); a double-bit error in a core stops the
vat that holds it, one in the stacks is counted (R197, R254, R363). -/
def State.sourceRead (s : State) (c : CoreId) (w : Word64) (n : Nat) : State :=
  let b := sourceOf s c w n
  match sourceCore c w with
  | some (x, a) =>
    let s1 := s.readCounted x a b.1.length
    if b.2 then s1 else (s1.eccMet x).eccStopHolder x
  | none => (if b.2 then s else s.countStackFatal (addr2 w) n).countStackFixed (addr2 w) n

/-- Bytes in pieces of so many. -/
def pieces (size : Nat) : Nat → List Byte → List (List Byte)
  | 0, _ => []
  | n + 1, bs => if bs.isEmpty then [] else bs.take size :: pieces size n (bs.drop size)

/-- A write to a core of the vat: messages of at most 32,768 B, or 4,096 B across the seam (R145). -/
def sendFar (s : State) (c : CoreId) (v : VatId) (d : Desc) (data : List Byte) : State × Nat :=
  match core1 d.dst with
  | none => (s, 0)
  | some x =>
    let size := if halfOf (regionOf x) = halfOf (regionOf c) then 32768 else 4096
    let ps := pieces size (ceilDiv data.length size) data
    ((ps.zip (upTo ps.length)).foldl (fun u p =>
      u.inject { vat := v, src := c, dst := defaultPos x, addr := addr1 d.dst + size * p.2, counted := true, uid := d.uid } p.1) s,
      ps.length)

/-- The WRITE packets of a remote write: 4,096 B each, the remainder last with LAST and, when asked, SIGNAL (R297). -/
def writePackets (s : State) (v : VatId) (d : Desc) (data : List Byte) : List Packet :=
  let ps := pieces 4096 (ceilDiv data.length 4096) data
  (ps.zip (upTo ps.length)).map (fun p =>
    let fin := decide (p.2 + 1 = ps.length)
    let signal := fin && d.signal
    { remotePacket s v d d.dst 1 with
      addr := advance3 d.dst (4096 * p.2), data := p.1, length := BitVec.ofNat 16 p.1.length, last := fin, signal := signal,
      sigVid := if signal then BitVec.ofNat 12 d.vid else 0, sigVal := if signal then BitVec.ofNat 16 d.addVal else 0 })
/-- A remote write leaves the core, or the stacks, for its link (R297). -/
def postWrites (s : State) (c : CoreId) (v : VatId) (d : Desc) (data : List Byte) : State :=
  match s.routeOf (remotePacket s v d d.dst 1) with
  | none => s
  | some l =>
    let ps := writePackets s v d data
    (ps.zip (upTo ps.length)).foldl (fun u p =>
      if kindOf d.src = 2 then u.packetFromStack (addr2 d.src + 4096 * p.2) l p.1 else u.packetFromCore (halfOf (regionOf c)) l p.1) s

/-- A remote read: one READ packet with the byte count (R287, R297). -/
def postRead (s : State) (c : CoreId) (v : VatId) (d : Desc) : State :=
  let p := { remotePacket s v d d.src 2 with data := leBytes 4 d.length ++ leBytes 4 0, length := 8, last := true }
  match s.routeOf p with
  | some l => s.packetFromCore (halfOf (regionOf c)) l p
  | none => s

/-- The engine's descriptor that begins, appended to the active ones with the queue's rest. -/
def State.activate (s : State) (c : CoreId) (d : Desc) : State :=
  s.modCore c (fun k => { k with dmaQ := k.dmaQ.drop 1, dmaActive := k.dmaActive ++ [d] })

/-- A tag in no use, and a packet TAG that no descriptor and no quarantined tag has (R299; how TAG names an engine is log entry 14). -/
def Core.freeTag (k : Core) : Option (Fin 64) :=
  (allFin 64).find? (fun x => !(k.dmaActive.any (fun d => d.tag == some x)) && !(k.quarantine.any (fun q => q.1 == x)))
def State.freePtag (s : State) : Nat :=
  let used := s.cores.flatMap (fun p => p.2.dmaActive.filterMap (fun d => d.tag.map (fun _ => d.ptag)) ++ p.2.quarantine.map (fun q => q.2.1))
  ((upTo (used.length + 1)).find? (fun x => !used.contains x)).getD 0

/-! ## The page walk (R124, R232) -/

/-- One matching entry's items. -/
def walkEntry (st conf : Word64) (m slot i number : Nat) : List Word64 :=
  let r := fld st 27 20
  let line := fld st 11 0 + fld st 19 12 * (number / fld conf 7 0)
  ((upTo r).filter (fun j => r * m + j < 64 * fld conf 22 16)).map (fun j =>
    let rec_ := r * m + j
    w64 (line + j * 2 ^ 12 + slot * 2 ^ 20 + rec_ / 64 % 64 * 2 ^ 22 + (64 * i + rec_ % 64) % 2 ^ 16 * 2 ^ 28))

/-- What a walk over a header comes to: its items, or none at an entry that stops the vat; and the streams whose list index
reaches 1,024. -/
def walkHeader (k : Core) (hdr : Nat) (st conf : Word64) (g m : Nat) : Option (List Word64) × List Nat :=
  let n := fld conf 7 0
  let ents (s : Nat) := memNat k.mem (hdr + 64 * s + 12) 2
  let start (s : Nat) := ((upTo s).map ents).foldl (· + ·) 0
  (upTo 4).foldl (fun acc slot =>
    let g0 := memNat k.mem (hdr + 64 * slot + 11) 1
    let past_ := if 1024 < ents slot then [memNat k.mem (hdr + 64 * slot) 2] else []
    ((upTo (min 1024 (ents slot))).foldl (fun a i =>
      match a with
      | none => none
      | some xs =>
        if (g0 + i) % n ≠ g then some xs
        else
          let e := memNat k.mem (hdr + 256 + 4 * (start slot + i)) 4
          let num := e % 2 ^ 24
          if e / 2 ^ 31 = 1 ∨ fld conf 63 40 ≤ num ∨ num % n ≠ g then none
          else some (xs ++ walkEntry st conf m slot i num)) acc.1, acc.2 ++ past_)) (some [], [])

/-- A walk made by the engine: the state and the status, or no status when the vat stops. -/
def State.walk (s : State) (c : CoreId) (v : VatId) (d : Desc) : State × Option Status :=
  let k := s.core c
  let hdr := fld d.src 31 0
  let kv := fld d.src 63 32
  let out_ := fld d.dst 31 0
  let lim := fld d.dst 63 32
  let ents := ((upTo 4).map (fun i => memNat k.mem (hdr + 64 * i + 12) 2)).foldl (· + ·) 0
  if !k.inSpm hdr (256 + 4 * ents) || !k.inSpm kv 32 || out_ % 32 ≠ 0 || lim < 32 || !k.inSpm out_ lim then (s, some .address)
  else if k.doubleAt hdr (256 + 4 * ents) || k.doubleAt kv 32 then
    ((s.eccMet c).eccStopHolder c, some .eccfatal)
  else
    let s0 := (s.readCounted c hdr (256 + 4 * ents)).readCounted c kv 32
    let w := walkHeader k hdr (w64 (memNat k.mem kv 8)) (w64 (memNat k.mem (kv + 8) 8)) (memNat k.mem (kv + 16) 2)
      (memNat k.mem (kv + 18) 2)
    let s1 := w.2.foldl (fun u x =>
      match toFin? 1024 x with
      | some i => match u.stream v i with
        | some y => u.setStream v i { y with atLimit := true }
        | none => u
      | none => u) s0
    match w.1 with
    | none => (s1.vatFault v c, none)
    | some items =>
      let fit := items.take ((lim - 32) / 8)
      let s2 := s1.modCore c (fun x =>
        let m1 := memPut (memPut x.mem out_ (leBytes 4 fit.length)) (out_ + 24) (leBytes 4 hdr)
        { x.healed out_ (32 + 8 * fit.length) with mem := memPut m1 (out_ + 32) (fit.flatMap (fun y => leBytes 8 y.toNat)) })
      (s2, some (if fit.length < items.length then .address else .ok))

/-! ## The engine's steps -/

/-- The local source of a transfer that reads at its start lies in a busy tile: the read waits (R76). -/
def startHeld (s : State) (c : CoreId) (d : Desc) : Bool :=
  !d.isWalk && (kindOf d.dst = 1 || kindOf d.dst = 3) && kindOf d.src = 0 && (s.core c).busyAt (addr0 d.src) d.length

/-- A descriptor begins: its checks run; a walk is made; messages and packets leave (R82, R83, R149, R297). -/
def State.startDesc (s : State) (c : CoreId) (v : VatId) (d0 : Desc) : State :=
  let d := { d0 with startTick := s.tickOf (halfOf (regionOf c)), window := s.remoteWindow v }
  if d.isWalk then
    match s.walk c v d with
    | (s1, some st) => s1.activate c { d with result := some st }
    | (s1, none) => s1.modCore c (fun k => { k with dmaQ := k.dmaQ.drop 1 })
  else if !d.loader && pairing (kindOf d.src) (kindOf d.dst) && (outsideVat s v d.src || outsideVat s v d.dst || readsOverSeam c d
      || (writesOverSeam c d && !s.crossesSeam v))
  then (s.vatFault v c).modCore c (fun k => { k with dmaQ := k.dmaQ.drop 1 })
  else
    match descFault s c v d with
    | some st => s.activate c { d with result := some st }
    | none =>
      if kindOf d.dst = 1 then
        let b := sourceOf s c d.src d.length
        let r := sendFar s c v d b.1
        (r.1.sourceRead c d.src d.length).activate c { d with undelivered := r.2, result := some (if b.2 then .ok else .eccfatal) }
      else if kindOf d.dst = 3 then
        let b := sourceOf s c d.src d.length
        if b.2 then
          let e := { d with tag := (s.core c).freeTag, ptag := s.freePtag }
          ((postWrites s c v e b.1).sourceRead c d.src d.length).activate c e
        else (s.sourceRead c d.src d.length).activate c { d with result := some .eccfatal }
      else if kindOf d.src = 3 then
        let e := { d with tag := (s.core c).freeTag, ptag := s.freePtag }
        (postRead s c v e).activate c e
      else if kindOf d.src = 2 then
        (s.activate c { d with trips := (stackPieces (addr2 d.src) d.length).length }).setOut c v d.uid false (addr2 d.src) d.length
      else if kindOf d.dst = 2 then
        (s.activate c { d with trips := (stackPieces (addr2 d.dst) d.length).length }).setOut c v d.uid true (addr2 d.dst) d.length
      else s.activate c d

/-- DMA_DESCRIPTOR_START: the queue's first descriptor becomes active once fewer than 8 are, any fence is met, and a remote one
finds a free tag (R82, R299). -/
def execDmaDescriptorStart (c : CoreId) (s : State) : Result :=
  let k := s.core c
  match k.dmaQ, s.vatOf c with
  | d :: _, some v =>
    let remote := !d.isWalk && (kindOf d.src = 3 || kindOf d.dst = 3)
    if !s.regionRuns (regionOf c) || 8 ≤ k.dmaActive.length || (d.fence && !k.dmaActive.isEmpty) || startHeld s c d
      || (remote && k.freeTag.isNone) then .next s
    else .next (s.startDesc c v d)
  | _, _ => .next s

/-- A descriptor leaves the engine: its status word, then its SIGNAL, which for a remote write the remote module has made
(R231, R297). -/
def State.finishDesc (s : State) (c : CoreId) (i : Nat) (d : Desc) (st : Status) : State :=
  let s1 := s.modCore c (fun k =>
    let k1 := { k with dmaActive := k.dmaActive.eraseIdx i }
    if d.statusAddr = 0 then k1 else k1.putBytes d.statusAddr (leBytes 4 (statusCode st + 256)))
  match s.vatOf c with
  | some v =>
    if d.signal && !(!d.isWalk && kindOf d.dst = 3) then
      s1.sendSignal c v ⟨d.vid % 4096, Nat.mod_lt _ (by decide)⟩ 1 0 d.addVal
    else s1
  | none => s1

/-- The bytes of a transfer inside the module moved: the state, and the status (R83). -/
def State.moveBytes (s : State) (c : CoreId) (d : Desc) : State × Status :=
  let b := sourceOf s c d.src d.length
  let s1 := s.sourceRead c d.src d.length
  let st : Status := if b.2 then .ok else .eccfatal
  if kindOf d.dst = 2 then
    (s1.stackWrite (addr2 d.dst) b.1, if s.fencedGranule (addr2 d.dst) d.length then .eccfatal else st)
  else
    -- writes to tiles and buffers are in whole words
    let bs := match (s.core c).reach (addr0 d.dst) d.length with
      | some .spm => b.1
      | some .cream => b.1
      | _ => b.1.take (b.1.length / 4 * 4)
    ((s1.mergeCounted c (addr0 d.dst) bs.length).modCore c (fun k => k.writeLocal (addr0 d.dst) bs), st)

/-- A transfer writes its core's cream. -/
def writesCream (d : Desc) : Bool := !d.isWalk && decide (kindOf d.dst = 0) && decide (addr0 d.dst < 0x180000)
/-- A transfer inside the module waits for a tile or an activation buffer (R74, R76), for its messages over the ring, for a core without
power to have it again (R25, log entry 91), and a write of cream for those of earlier descriptors (R68). -/
def moveHeld (s : State) (c : CoreId) (d : Desc) : Bool :=
  let k := s.core c
  (kindOf d.src = 0 && k.busyAt (addr0 d.src) d.length)
    || (kindOf d.src = 1 && (match core1 d.src with
        | some x => (s.core x).busyAt (addr1 d.src) d.length
        | none => false))
    || (kindOf d.dst = 0 && (k.busyAt (addr0 d.dst) d.length || k.bufRead (addr0 d.dst) d.length))
    || d.trips ≠ 0
    || (match sourceCore c d.src with
        | some (x, _) => !s.regionOn (regionOf x)
        | none => false)
    || (writesCream d && (k.dmaActive.takeWhile (fun e => e.uid ≠ d.uid)).any (fun e => writesCream e && e.result.isNone))

/-- A descriptor's timeout window is over at its region's tick. -/
def State.timedOut (s : State) (c : CoreId) (d : Desc) : Bool :=
  windowOver d.startTick d.window (s.tickOf (halfOf (regionOf c)))
/-- The descriptors that time out: remote ones, and reads of the stacks (R299). -/
def canTimeOut (d : Desc) : Bool := !d.isWalk && (kindOf d.src = 3 || kindOf d.dst = 3 || kindOf d.src = 2)

/-- DMA_DESCRIPTOR_COMPLETE: an active descriptor completes; a transfer inside the module moves its bytes now, others have been
decided and acknowledged (R82, R178, R231). -/
def execDmaDescriptorComplete (c : CoreId) (i : Fin 8) (s : State) : Result :=
  match (s.core c).dmaActive[i.val]? with
  | none => .next s
  | some d =>
    if !s.regionRuns (regionOf c) then .next s
    else
      match d.result with
      | some st => if d.undelivered = 0 then .next (s.finishDesc c i d st) else .next s
      | none =>
        if kindOf d.src = 3 || kindOf d.dst = 3 || moveHeld s c d then .next s
        else if canTimeOut d && s.timedOut c d then .next s
        else
          let r := s.moveBytes c d
          .next (r.1.finishDesc c i d r.2)

/-- The tag of a timed-out descriptor goes into quarantine for 4 ms (R299). -/
def State.quarantineTag (s : State) (c : CoreId) (d : Desc) : State :=
  match d.tag with
  | none => s
  | some x => s.modCore c (fun k =>
      { k with quarantine := k.quarantine ++ [(x, d.ptag, s.tickOf (halfOf (regionOf c)), s.winTicks 4000000)] })

/-- REMOTE_TIMEOUT: a remote descriptor or stack read whose answer was not accepted by the last tick of its window completes
with TIMEOUT (R299). -/
def execRemoteTimeout (c : CoreId) (i : Fin 8) (s : State) : Result :=
  match (s.core c).dmaActive[i.val]? with
  | some d =>
    if d.result.isNone && canTimeOut d && s.timedOut c d then .next ((s.finishDesc c i d .timeout).quarantineTag c d)
    else .next s
  | none => .next s

/-- TAG_QUARANTINE_END: a tag's window of 4 ms is over (R299). -/
def execTagQuarantineEnd (c : CoreId) (tag : Fin 64) (s : State) : Result :=
  let at_ := s.tickOf (halfOf (regionOf c))
  .next (s.modCore c (fun k =>
    { k with quarantine := k.quarantine.filter (fun q => !(q.1 == tag && windowOver q.2.2.1 q.2.2.2 at_)) }))

end Sys2Proof.Machine
end

