-- ==== Sys2Proof/Machine/Twin.lean ====
section
/-! DEFINITION. Twins: pairing, mirroring, handover, takeover and failover (R300 to R306, R361, R362). -/

namespace Sys2Proof.Machine

/-- Every vat's own state changed. -/
def State.mapVats (s : State) (f : Vat → Vat) : State := { s with vats := s.vats.map (fun p => (p.1, f p.2)) }
/-- TWIN_STATUS.STATE: 0 UNPAIRED, 1 SYNCING, 2 MIRRORED, 3 ALONE, 4 DETACHED. -/
def State.twinState (s : State) : Nat := s.rfld .twinStatus 2 0
def State.setTwinState (s : State) (x : Nat) : State := s.putR .twinStatus 2 0 x
/-- This module is active for a vat. -/
def State.ownsVat (s : State) (v : VatId) : Bool := s.rfld .twinOwner v v = 1
/-- TWIN_OWNER changed for a vat, with its interrupt (R314, R329). -/
def State.setOwner (s : State) (v : VatId) (b : Bool) : State :=
  if s.ownsVat v = b then s else (s.putR .twinOwner v v b.toNat).cause (.vat v .vatIrq) 19
/-- The vats that a mask names. -/
def vatsIn (m : Word64) : List VatId := (allFin 64).filter (fun v => bitAt m v)
/-- The mask of some vats. -/
def maskOfVats (vs : List VatId) : Word64 := w64 ((vs.map (fun v => 2 ^ v.val)).foldl (· + ·) 0)
/-- A working twin link exists. -/
def State.twinLink (s : State) : Bool := !s.twinLinks.isEmpty

/-- FAIL sent at once on every working twin link, for some of the vats for which this module is active (R303). -/
def State.sendFail (s : State) (p : VatId → Bool) : State :=
  let vs := (allFin 64).filter (fun v => s.ownsVat v && p v)
  if (s.twinState = 1 || s.twinState = 2) && s.twinLink && !vs.isEmpty then
    (s.sendNow s.twinLinks (.fail (maskOfVats vs))).logEvent 0x0080 0 0 0
  else s

/-! ## Pairing (R300) -/

/-- A vat of the module is chained. -/
def State.anyChained (s : State) : Bool := (allFin 64).any (fun v => s.vfld v .linkChain 1 0 ≠ 0)
/-- A vat has not been copied to the standby since it came here or went on alone. -/
def State.needsSync (s : State) (v : VatId) : Bool := (s.vat v).alone || (s.vat v).unsynced
/-- A pair may be made, or made again after it was lost, or while a vat is not mirrored. -/
def State.mayPair (s : State) : Bool :=
  s.rfld .twinCtrl 16 16 = 1 && s.twinLink
    && (s.twinState ≠ 1) && (s.twinState ≠ 2 || (allFin 64).any s.needsSync)

/-- The KV registers that pairing compares: those of R142 but for what the ladle keeps in them. -/
def kvRegs : List VatReg :=
  [.kvConf, .kvLimit, .kvQkScale, .kvListbase, .kvSkimbase, .kvRot] ++ (allFin 256).map .kvStage ++ (allFin 128).map .kvRotFreq
/-- What a KV register holds for comparison: its written fields. -/
def State.kvWord (s : State) (v : VatId) (r : VatReg) : Word64 := s.vreg v r &&& w64 (rwMask (.vat v r))
/-- The other module's word of a KV register: as listed, else the reset value. -/
def peerWord (x : PeerVat) (v : VatId) (r : VatReg) : Word64 := (kfind x.kv r).getD (regReset (.vat v r)) &&& w64 (rwMask (.vat v r))
/-- The other module's list names a vat that agrees with this one: digest, placement and KV registers (R300). -/
def State.sameVat (s : State) (v : VatId) (x : PeerVat) : Bool :=
  x.vat = v && decide (x.digest = ((s.vat v).ingot.map IngotTable.digest).getD 0) && x.regions == s.regionsOf v
    && kvRegs.all (fun r => s.kvWord v r = peerWord x v r)
/-- The two modules hold the same vats, each alike (R300). -/
def State.sameVats (s : State) (peer : List PeerVat) : Bool :=
  (allFin 64).all (fun v => if s.vstate v = 0 then !peer.any (fun x => x.vat = v) else peer.any (s.sameVat v))
    && (peer.map PeerVat.vat).eraseDups.length = peer.length

/-- The copy of one stream that SYNCING sends: its STREAM record, its committed KV and a COMMIT that covers them, whose acknowledgement is
awaited (R300). -/
def State.syncStream (s : State) (v : VatId) (st : StreamId) : State :=
  match s.stream v st with
  | some x =>
    if x.target.isSome || x.ended || x.entryTick = 0 then s
    else
      let s1 := (s.setStream v st { x with mirrored := 0 }).sendRecord 5 v (.stream v (mirrorInfo st x))
      let s2 := s1.mirrorUpTo v st x.lc [] s.now
      { s2 with twin := { s2.twin with unacked := s2.twin.unacked ++
        [{ queue := x.queue, who := some (v, st), lc := x.lc, acked := false, bytes := 0, comp := none }] } }
  | none => s
/-- The copy of one vat: its streams, its pails and its ladle (R300). -/
def State.syncVat (s : State) (v : VatId) : State :=
  let s1 := ((s.vat v).streams.map Prod.fst).foldl (fun u st => u.syncStream v st) s
  let s2 := ((s.vat v).pails.map Prod.fst).foldl (fun u p => u.sendFill v p) s1
  (s2.sendLadle v).refreshPending

/-- PAIR: the modules compare what R300 names; where they differ, or one has a chained vat, pairing is refused; else the pair
synchronises: the active module sends the state and committed KV of each of its vats that the standby does not hold, and goes on serving.
A new pair's active vats are those that run here (log entry 21). -/
def execPair (peer : List PeerVat) (peerChained : Bool) (s : State) : Result :=
  if !s.mayPair then .next s
  else if !s.sameVats peer || peerChained || s.anyChained then .next (s.putR .twinStatus 3 3 1)
  else
    let s1 := if s.twinState = 0 then
        (allFin 64).foldl (fun u v => u.setOwner v (decide (s.vstate v = 2 ∨ s.vstate v = 3 ∨ s.vstate v = 4))) s
      else s
    let fresh := (allFin 64).filter (fun v => s1.vstate v ≠ 0 && (s.twinState ≠ 2 || s1.needsSync v))
    let s2 := fresh.foldl (fun u v => u.modVat v (fun w => { w with alone := false, unsynced := !s1.ownsVat v })) s1
    let s3 := { s2 with twin := { s2.twin with failSeen := false } }.setTwinState 1
    .next ((fresh.filter s1.ownsVat).foldl State.syncVat s3)

/-- MIRRORED: every stream has been copied, and the standby has acknowledged its COMMIT (R300). -/
def execMirrored (s : State) : Result :=
  if s.twinState = 1 && !s.twin.unacked.any (fun u => u.comp.isNone && !u.acked) then
    .next ((s.mapVats (fun w => { w with alone := false, unsynced := false })).setTwinState 2)
  else .next s

/-! ## The standby's records (R301) -/

/-- The mirrored record of a stream. -/
def State.mrec (s : State) (v : VatId) (st : StreamId) : Option MirrorRec := kfind s.twin.recs (v, st)
def State.setRec (s : State) (v : VatId) (st : StreamId) (x : MirrorRec) : State :=
  { s with twin := { s.twin with recs := kset s.twin.recs (v, st) x } }

/-- MIRROR_STREAM: the standby learns of a stream and makes its own reservation for it. -/
def execMirrorStream (v : VatId) (m : MirrorStream) (s : State) : Result :=
  if !s.standby v then .next s
  else
    let need := pagesFor m.limit
    let x : Stream :=
      { queue := m.queue, cmdId := m.cmdId, cust := m.cust, phase := .decoding, limit := m.limit, variant := m.variant, topK := m.topK,
        invTemp := m.invTemp, topP := m.topP, seed := m.seed, maxNew := m.maxNew, stops := m.stops, firstPass := false,
        g0 := (s.findG0 v none need).getD 0, reserved := need, readyTick := s.now, entryTick := s.now, newTokens := m.newTokens,
        lastToken := m.lastToken, announced := m.announced }
    .next ((((s.setRec v m.stream { info := m }).keep v m.stream x).extend v m.stream).refreshStreams v)

/-- Mirrored KV records written into the standby's own pages. -/
def State.applyKv (s : State) (v : VatId) (st : StreamId) (kv : List ((Nat × Nat × Nat) × List Byte)) : State :=
  kv.foldl (fun u e =>
    match u.stream v st, (u.kvStages v)[e.1.1]? with
    | some x, some sg =>
      (match x.pages[e.1.2.1 / 64]? with
       | some pg =>
         (match u.recordPlace v e.1.1 sg pg.number (64 * e.1.2.2 + e.1.2.1 % 64) with
          | some (c, a) => u.putKvAt c a e.2
          | none => u)
       | none => u)
    | _, _ => u) s

/-- The COMMITs at the front of a stream's record are applied while every KV record that they cover has arrived, and each is then
acknowledged (R301). -/
def State.applyCommits (s : State) (v : VatId) (st : StreamId) : Nat → State
  | 0 => s
  | n + 1 =>
    match s.mrec v st with
    | some r =>
      (match r.waiting with
       | m :: ms =>
         if m.kvCount ≤ r.kv.length then
           let s1 := match s.stream v st with
             | some x => (s.keep v st { x with lc := m.lc, lastToken := m.tokens.getLastD x.lastToken,
                                               announced := x.announced || !m.tokens.isEmpty,
                                               newTokens := x.newTokens + m.tokens.length }).extend v st
             | none => s
           (((s1.applyKv v st (r.kv.take m.kvCount)).setRec v st
             { r with lc := m.lc, applied := r.applied ++ [m], waiting := ms, kv := r.kv.drop m.kvCount }).sendRecord 6 v
               (.commitAck v st m.lc)).applyCommits v st n
         else s
       | [] => s)
    | none => s
/-- The same, for as many as there are. -/
def State.tryCommit (s : State) (v : VatId) (st : StreamId) : State :=
  s.applyCommits v st (((s.mrec v st).map (fun r => r.waiting.length)).getD 0)

/-- MIRROR_KV: a record arrives at the standby. -/
def execMirrorKv (v : VatId) (st : StreamId) (stage pos head : Nat) (bytes : List Byte) (s : State) : Result :=
  match s.mrec v st with
  | some r =>
    if !s.standby v then .next s
    else .next ((s.setRec v st { r with kv := r.kv ++ [((stage, pos, head), bytes)] }).tryCommit v st)
  | none => .next s

/-- MIRROR_COMMIT: a commit arrives at the standby. -/
def execMirrorCommit (v : VatId) (m : MirrorCommit) (s : State) : Result :=
  match s.mrec v m.stream with
  | some r =>
    if !s.standby v then .next s else .next ((s.setRec v m.stream { r with waiting := r.waiting ++ [m] }).tryCommit v m.stream)
  | none => .next s

/-- MIRROR_FILL: the streams placed in a pail. -/
def execMirrorFill (v : VatId) (pail : Nat) (streams : List StreamId) (s : State) : Result :=
  if !s.standby v then .next s
  else .next { s with twin := { s.twin with fills := kset s.twin.fills (v, pail) streams, lastFill := kset s.twin.lastFill v pail } }

/-- MIRROR_LADLE: the ladle's state. -/
def execMirrorLadle (v : VatId) (cursor : Nat) (credits : List (QueueId × Nat)) (balances : List (Fin 4096 × Word32))
    (entries : List (QueueId × List Byte × Nat)) (s : State) : Result :=
  if !s.standby v then .next s
  else
    let l : LadleRec := { cursor := cursor, credits := credits, balances := balances, entries := entries }
    .next { s with twin := { s.twin with ladles := kset s.twin.ladles v l } }

/-- MIRROR_END: a stream has ended; its pages are given back, and its record is kept for the tokens that the active module may not have
delivered (R304). -/
def execMirrorEnd (v : VatId) (st : StreamId) (status : Status) (s : State) : Result :=
  if !s.standby v then .next s
  else
    let s1 := match s.mrec v st with
      | some r => { s with twin := { s.twin with recs := kdel s.twin.recs (v, st), ends := s.twin.ends ++ [(v, r, status)] } }
      | none => s
    match s1.stream v st with
    | some x => .next (s1.dropStream v st x.queue)
    | none => .next s1

/-- The COMMIT that an acknowledgement names. -/
def ackOne (v : VatId) (st : StreamId) (lc : Nat) : List Unacked → List Unacked × Nat
  | [] => ([], 0)
  | u :: us =>
    if !u.acked && u.who == some (v, st) && u.lc = lc then ({ u with acked := true } :: us, u.bytes)
    else
      let r := ackOne v st lc us
      (u :: r.1, r.2)

/-- TWIN_COMMIT_ACK: the standby has acknowledged a COMMIT: its records leave the staging, and its completion is written (R301,
R302). -/
def execTwinCommitAck (v : VatId) (st : StreamId) (lc : Nat) (s : State) : Result :=
  let r := ackOne v st lc s.twin.unacked
  .next ({ s with twin := { s.twin with unacked := r.1, staging := s.twin.staging - r.2 } }.drainAcked)

/-! ## Handover and takeover (R304 to R306, R361) -/

/-- A stream back in the pail that the FILL records name. -/
def State.seatAgain (s : State) (v : VatId) (p : Nat) (i : Nat) (st : StreamId) : State :=
  match s.stream v st with
  | some x =>
    let pl := s.pail v p
    (s.setPail v p { pl with slots := pl.slots.set i (some st) }).setStream v st { x with seat := some (p, i) }
  | none => s
/-- The mirrored ladle state taken into use. -/
def State.takeLadle (s : State) (v : VatId) : State :=
  match kfind s.twin.ladles v with
  | none => s
  | some l =>
    let s1 := s.modVat v (fun w => { w with cursor := l.cursor, credits := l.credits })
    let s2 := l.balances.foldl (fun u b => u.putR (.ladleCust b.1 1) 31 0 b.2.toNat) s1
    l.entries.foldl (fun u e =>
      (u.modQp e.1 (fun q => { q with fetched := q.fetched ++ [{ bytes := e.2.1, tick := e.2.2 }] })).refreshQue e.1) s2
/-- The pails of a vat as its FILL records say, with their headers. -/
def State.refillPails (s : State) (v : VatId) : State :=
  (s.twin.fills.filter (fun f => f.1.1 = v)).foldl (fun u f =>
    let u1 := ((upTo f.2.length).zip f.2).foldl (fun w e => w.seatAgain v f.1.2 e.1 e.2) u
    (u1.writeHeader v f.1.2).beginPass v f.1.2) s
/-- What the standby has not applied is discarded: COMMITs whose KV records are not complete, and the records that came for them (R304). -/
def State.dropIncomplete (s : State) (v : VatId) : State :=
  { s with twin := { s.twin with recs := s.twin.recs.map (fun p =>
      if p.1.1 = v then (p.1, { p.2 with waiting := [], kv := [] }) else p) } }
/-- The completion of a COMMIT that the standby has applied. -/
def recordCompletion (v : VatId) (r : MirrorRec) (i : Nat) (m : MirrorCommit) (fin : Option Status) : Completion :=
  { cmdId := r.info.cmdId, status := fin.getD .ok, first := decide (i = 0) && !r.info.announced, fin := fin.isSome, tokens := m.tokens, vat := v,
    stream := BitVec.ofNat 16 r.info.stream.val, lc := m.lc, commitTick := m.tick }
/-- Completions from the first token that the active module had not delivered: how many of a stream's last COMMITs those are the standby
learns from nobody, and it is a free value (R304; log entry 22). -/
def State.writeUndelivered (s : State) (v : VatId) (r : MirrorRec) (fin : Option Status) : State :=
  let cs := r.applied.filter (fun m => !m.tokens.isEmpty)
  let k := (Config.freeWord s.freeCtr).toNat % (cs.length + 1)
  let first := cs.length - k
  (((upTo cs.length).zip cs).drop first).foldl (fun u p =>
    u.deliver r.info.queue (some (v, r.info.stream)) p.2.lc none
      (recordCompletion v r p.1 p.2 (if p.1 + 1 = cs.length then fin else none))) { s with freeCtr := s.freeCtr + 1 }
/-- The same for every stream of a vat, those that have ended first. -/
def State.writeAllUndelivered (s : State) (v : VatId) : State :=
  let s1 := (s.twin.ends.filter (fun e => e.1 = v)).foldl (fun u e => u.writeUndelivered v e.2.1 (some e.2.2)) s
  (s.twin.recs.filter (fun p => p.1.1 = v)).foldl (fun u p => u.writeUndelivered v p.2 none) s1

/-- The standby takes a vat over: it starts it, each pail at the stage at which the FILL records place it: the pail filled last stands at the
last stage, about to enter the first. It runs without mirroring until a new SYNCING (R304, R362; log entry 22). -/
def State.takeOver (s : State) (v : VatId) : State :=
  let n := (s.ring v).length
  let last := kfind s.twin.lastFill v
  let edges := match last with
    | some p => p + n - 1
    | none => 0
  let s1 := (((s.dropIncomplete v).takeLadle v).refillPails v).writeAllUndelivered v
  let s2 := (s1.mapCores v Core.started).modVat v (fun w =>
    { w with live := true, elapsed := 0, slipRun := 0, gateOff := false, slipDue := none, gateTick := some s.now, edges := edges, done := [],
             winStart := s.now, winLen := s.winTicks (1000 * s.vfld v .vatLadle 15 0), alone := true })
  let s3 := match last with
    | some p => s2.setPail v p { s2.pail v p with filledAt := some edges, headerWait := true }
    | none => s2
  ((((s3.checkLoans v).dropMirror v).setVstate v 2).setOwner v true).bumpR .twinStatus 63 32 1
/-- The vats of a mask that this module can take over: it is the standby, holds a whole copy, and does not run them. -/
def State.takeable (s : State) (m : Word64) : List VatId :=
  (vatsIn m).filter (fun v => !s.ownsVat v && !(s.vat v).unsynced && (s.vstate v = 1 || s.vstate v = 4))
/-- The vats of a mask are to be taken over at the next tick (R304), with the health event. -/
def State.takeAll (s : State) (m : Word64) : State :=
  let vs := (s.takeable m).filter (fun v => !s.twin.taking.contains v)
  if vs.isEmpty then s else { s with twin := { s.twin with taking := s.twin.taking ++ vs } }.logEvent 0x0081 0 0 0
/-- The takeovers whose tick has come. -/
def State.takeDue (s : State) : State := s.twin.taking.foldl (fun u v => u.takeOver v) { s with twin := { s.twin with taking := [] } }

/-- FAIL_PACKET: the standby takes over the vats of the mask (R304). -/
def execFailPacket (mask : Word64) (s : State) : Result :=
  if s.twinState = 1 || s.twinState = 2 then .next ({ s with twin := { s.twin with failSeen := true } }.takeAll mask) else .next s
/-- HANDOVER_PACKET: the standby takes over the vats of the mask (R304, R305). -/
def execHandoverPacket (mask : Word64) (s : State) : Result :=
  if s.twinState = 1 || s.twinState = 2 then .next (s.takeAll mask) else .next s

/-- A HANDOVER command whose tick has come: admissions and deliveries of the vats it names stop; one that is STOPPED for another
reason than ECCFATAL is refused (R305, R361). -/
def State.beginHandover (s : State) : State :=
  if !(s.twin.cmdDue && s.twin.cmd = 1) then s
  else
    let s1 := { s with twin := { s.twin with cmd := 0, cmdDue := false } }
    ((vatsIn (s.getReg .twinCmdMask)).filter (fun v => s.mirroring v)).foldl (fun u v =>
      if u.vstate v = 5 && decide (u.vfld v (.vatFault 0) 7 0 ≠ statusCode .eccfatal) then u.putR .twinStatus 3 3 1
      else u.modVat v (fun w => { w with handing := true })) s1
/-- The vats being handed over. -/
def State.handingVats (s : State) : List VatId := (allFin 64).filter (fun v => (s.vat v).handing && s.ownsVat v)
/-- A vat given away: what ran becomes QUIESCED, and it is the standby's again only after a new SYNCING (R305). -/
def State.giveAway (s : State) (v : VatId) : State :=
  let s1 := (s.setOwner v false).modVat v (fun w => { w with handing := false, unsynced := true, cmd := if w.reload then 4 else w.cmd })
  (if s.vstate v = 2 ∨ s.vstate v = 3 then s1.setVstate v 4 else s1).logEvent 0x0084 0 7 v

/-- HANDOVER: a committed HANDOVER begins; once every COMMIT of its vats has been acknowledged, the packet goes and the standby
takes over (R305, R361). -/
def execHandover (s0 : State) : Result :=
  let s := s0.beginHandover
  let vs := s.handingVats
  if vs.isEmpty || s.twin.unacked.any (fun u => !u.acked && u.vat.any vs.contains) then .next s
  else
    let s1 := s.flushMirrors.sendNow s.twinLinks (.handover (maskOfVats vs))
    let s2 := ({ s1 with twin := { s1.twin with unacked := s1.twin.unacked.filter (fun u => !u.vat.any vs.contains) } }).drainAcked
    .next (vs.foldl (fun u v => u.giveAway v) s2)

/-- TAKEOVER: once the twin is lost, a committed TAKEOVER takes over the vats of TWIN_CMD_MASK of which this module is the standby (R306): of
a detached module, and of one that goes on alone for other vats. -/
def execTakeover (s : State) : Result :=
  if !(s.twin.cmdDue && s.twin.cmd = 2) then .next s
  else
    let s1 := { s with twin := { s.twin with cmd := 0, cmdDue := false } }
    if !(s.twinState = 3 || s.twinState = 4) || (s.takeable (s.getReg .twinCmdMask)).isEmpty then .next s1
    else .next ((s1.takeAll (s.getReg .twinCmdMask)).setTwinState 3)

/-- TWIN_SILENCE: no control cell on any twin link for 100 µs and no FAIL: the active module goes on alone and delivers its tokens;
the standby is detached (R306). -/
def execTwinSilence (s : State) : Result :=
  if !(s.twinState = 1 || s.twinState = 2) || s.twin.failSeen then .next s
  else if s.getReg .twinOwner = 0 then .next ((s.setTwinState 4).logEvent 0x0083 0 0 0)
  else
    let us := s.twin.unacked.map (fun u => { u with acked := true })
    let s1 := s.mapVats (fun w => { w with handing := false })
    let s2 := { s1 with twin := { s.twin with unacked := us, staging := 0 } }
    .next ((s2.drainAcked.setTwinState 3).logEvent 0x0082 0 0 0)

end Sys2Proof.Machine
end

