-- ==== Sys2Proof/Machine/Power.lean ====
section
/-! DEFINITION. Module states: input power, starting, the neighbour test and its map, shutdown and module reset (R14, R17, R28, R168,
R336 to R345, R353 to R355, R372, R379, R380, R395). -/

namespace Sys2Proof.Machine

/-! ## What lasts (R339, R344, R353, R355) -/

/-- PWR_STATE.STATE set (R336). -/
def State.setMod (s : State) (x : Nat) : State := s.putR .pwrState 2 0 x
/-- A register of the event log (R331). -/
def isLog : Reg → Bool
  | .glbEventWr => true
  | .glbEvent _ _ => true
  | _ => false
/-- A word of a vat fault record (R200). -/
def isFaultWord : Reg → Bool
  | .vat _ (.vatFault _) => true
  | _ => false
/-- The warden parks the event log and the fault records in the flash (R353). -/
def State.park (s : State) : State :=
  { s with pow := { s.pow with parked := s.regs.filter (fun p => isLog p.1 || isFaultWord p.1) } }
/-- What of a register outlives the rails: PWR_STATE and the event log, which the warden holds; the defect map with its counts, RETIRED
and due retirements, in the flash; and QUENCHED. Everything else has its reset value. -/
def lasting (r : Reg) (w : Word64) : Word64 :=
  match r with
  | .pwrState => w
  | .pwrMap => w &&& w64 (maskOf 24 4)
  | .pwrRegion _ => (w &&& w64 (maskOf 22 16)) ||| regReset r
  | .pwrDefect _ => w
  | .pwrGroup _ => w &&& w64 (maskOf 8 7)
  | .thermStatus => w &&& w64 (maskOf 24 24)
  | _ => if isLog r then w else regReset r
/-- The registers after the rails have gone: those that keep something. -/
def lastingRegs (rs : KMap Reg Word64) : KMap Reg Word64 :=
  (rs.map (fun p => (p.1, lasting p.1 p.2))).filter (fun p => p.2 ≠ regReset p.1)
/-- What the warden and its flash keep beside the registers. -/
def Power.kept (p : Power) : Power :=
  { prevFail := p.prevFail, lastWarn := p.lastWarn, alertReleased := p.alertReleased, straps := p.straps, tapOp := p.tapOp,
    tapCells := p.tapCells, fwBuf := p.fwBuf, smbusErrors := p.smbusErrors, mapStored := p.mapStored, confirm := p.confirm,
    parked := p.parked }
/-- The module without power on the wafer, in a state given: what waits outside, what has left, and what lasts. -/
def State.railsOff (s : State) (x : Nat) : State :=
  let k : State := { pending := s.pending, out := s.out, smbus := s.smbus, seq := s.seq, freeCtr := s.freeCtr,
                     regs := lastingRegs s.regs, pow := s.pow.kept }
  k.setMod x

/-- A start fails in a phase: the module halts (R339). -/
def State.haltStart (s : State) (phase : Nat) : State :=
  ((s.railsOff 7).putR .pwrState 10 8 phase).logEvent 0x0004 0 0 0

/-! ## Power-good and the kind of start (R337, R341, R372) -/

/-- A retirement that a module start makes due: the region is marked, and leaves the map. -/
def State.retireAtStart (s : State) (r : Region) : State :=
  let b := 7 + r.val % 2
  if s.rfld (.pwrGroup (groupOf r)) b b = 1 then
    let s1 := s.putR (.pwrGroup (groupOf r)) b b 0
    if s.regionRetired r then s1
    else ((s1.putR (.pwrRegion r) 16 16 1).dropDefects r).logEvent 0x0012 (statusCode .vatfault) 1 r
  else s
/-- A start begins: it is counted, found cold or warm, and carries out the retirements that are due. -/
def State.beginStart (s : State) : State :=
  let cold := !s.pow.mapStored || s.rfld .pwrState 4 4 = 1 || s.pow.prevFail
  let s1 := (s.bumpR .pwrState 31 16 1).putR .pwrState 3 3 cold.toNat
  (allFin 192).foldl State.retireAtStart { s1 with pow := { s1.pow with prevFail := false, tested := false } }

/-- POWER_GOOD: the input holds for 200 ms; from OFF a start begins, but while QUENCHED is 1 (R337, R339, R379). -/
def execPowerGood (s : State) : Result :=
  if s.modState ≠ 0 then .next s
  else
    let s1 := (s.putR .pwrState 5 5 1).putR .pwrState 6 6 0
    let s2 := { s1 with pow := { s1.pow with lastWarn := none } }
    if s.rfld .thermStatus 24 24 = 1 then .next s2 else .next (s2.beginStart.setMod 1)

/-! ## CHECK, RIM and WAKE (R339) -/

/-- CHECK: the assay unit's verdict on the firmware. -/
def execCheck (wardenOk rimOk powerOk : Bool) (s : State) : Result :=
  if s.modState ≠ 1 then .next s
  else if wardenOk && rimOk && powerOk then .next ((s.putR .assayStatus 2 2 1).setMod 2)
  else .next (((s.haltStart 2).putR .assayStatus 1 0 3).putR .assayStatus 3 3 1)

/-- The fault records that the flash holds, back in their words. -/
def State.unpark (s : State) : State :=
  (s.pow.parked.filter (fun p => isFaultWord p.1)).foldl (fun u p => u.setReg p.1 p.2) s
/-- The presses at a stack's site. -/
def sitePresses (k : Fin 24) : List (Fin 96) := (allFin 96).filter (fun n => n.val / 4 = k.val)
/-- A press retired: the press set of its vat changes, so that the copy is to be written again (R241). -/
def State.retirePress (s : State) (n : Fin 96) : State :=
  if s.rfld (.glbPress n) 7 7 = 1 then s
  else
    let s1 := (s.putR (.glbPress n) 7 7 1).logEvent 0x0043 0 5 n
    match toFin? 64 (s.rfld (.glbPress n) 5 0) with
    | some v => if s.rfld (.glbPress n) 6 6 = 1 then s1.modVat v (fun w => { w with copied := [] }) else s1
    | none => s1
/-- A stack retired, with its presses (R241, R255). -/
def State.retireStack (s : State) (k : Fin 24) : State :=
  (sitePresses k).foldl State.retirePress ((s.putR (.glbStack k) 31 0 (maskOf 31 0)).logEvent 0x0042 0 3 k)
/-- The stacks, and the presses, among the parts that failed. -/
def failedStacks (ps : List RimPart) : List (Fin 24) :=
  (ps.filterMap (fun p => match p with | .stack k => some k | .press _ => none)).eraseDups
def failedPresses (ps : List RimPart) : List (Fin 96) :=
  ps.filterMap (fun p => match p with | .press n => some n | .stack _ => none)
/-- RIM: the rim comes up, with the parked fault records; a stack that fails training is retired, and so is a press that fails its self-test
(R256, R339). -/
def execRim (ok : Bool) (failed : List RimPart) (s : State) : Result :=
  if s.modState ≠ 2 then .next s
  else if !ok then .next (s.haltStart 3)
  else .next (((failedPresses failed).foldl State.retirePress ((failedStacks failed).foldl State.retireStack s.unpark)).setMod 3)

/-- Regions powered, locked at step 10. -/
def State.wakeAll (s : State) (rs : List Region) : State :=
  rs.foldl (fun u r => ((u.putR (.pwrRegion r) 14 14 1).putR (.thermRegion r) 19 16 10).bumpR (.pwrWake (halfIndex (halfOf r))) 31 8 1) s
/-- WAKE: every unretired region is powered and relocked, and the ticks start at 0 (R32, R34). -/
def execWake (ok : Bool) (s : State) : Result :=
  if s.modState ≠ 3 then .next s
  else if !ok then .next (s.haltStart 4)
  else
    let s1 := s.wakeAll ((allFin 192).filter (fun r => !s.regionRetired r))
    .next ({ s1 with tickNorth := 0, tickSouth := 0, runNorth := true, runSouth := true }.setMod 4)

/-! ## TEST (R14, R17, R28, R168, R342 to R344) -/

/-- An entry of a defect map: the core, the link east, the link south. -/
abbrev Marks := Bool × Bool × Bool
/-- A map with marks added at a position. -/
def mark (m : KMap RouterId Marks) (p : RouterId) (x : Marks) : KMap RouterId Marks :=
  match kfind m p with
  | some y => m.map (fun e => if e.1 = p then (p, (y.1 || x.1, y.2.1 || x.2.1, y.2.2 || x.2.2)) else e)
  | none => m ++ [(p, x)]
/-- The map that the flash holds. -/
def State.storedMap (s : State) : KMap RouterId Marks :=
  (allFin 6144).filterMap (fun i =>
    let w := s.getReg (.pwrDefect i)
    match toFin? 512 (fld w 8 0), toFin? 384 (fld w 17 9) with
    | some x, some y => if bitAt w 21 then some (⟨x, y⟩, (bitAt w 18, bitAt w 19, bitAt w 20)) else none
    | _, _ => none)
/-- R343's verdict on a core. -/
def CoreReport.defective (r : CoreReport) : Bool :=
  r.selfFail || 2 ≤ r.failedBy || (r.workingNeighbours < 2 && 1 ≤ r.failedBy)
/-- The router on the far end of a link. -/
def farEnd (p : RouterId) (south : Bool) : Option RouterId := neighbour p (if south then 2 else 1)
/-- A link that failed is dead when both of its ends are good. -/
def deadLink (m : KMap RouterId Marks) (p : RouterId) (south : Bool) : Bool :=
  match farEnd p south with
  | some q => !(kget (false, false, false) m p).1 && !(kget (false, false, false) m q).1
  | none => false
/-- The map after a neighbour test: the cores it finds, then the links. -/
def mapAfter (m : KMap RouterId Marks) (rep : List CoreReport) : KMap RouterId Marks :=
  let m1 := (rep.filter CoreReport.defective).foldl (fun a r => mark a r.core (true, false, false)) m
  rep.foldl (fun a r =>
    let e := r.eastFails && deadLink m1 r.core false
    let d := r.southFails && deadLink m1 r.core true
    if e || d then mark a r.core (false, e, d) else a) m1
/-- Defective cores, and entries, of a region. -/
def coresBad (m : KMap RouterId Marks) (r : Region) : Nat := m.countP (fun e => regionAt e.1 = r && e.2.1)
def entriesIn (m : KMap RouterId Marks) (r : Region) : Nat := m.countP (fun e => regionAt e.1 = r)
/-- A map without some regions. -/
def withoutRegions (m : KMap RouterId Marks) (rs : List Region) : KMap RouterId Marks := m.filter (fun e => !rs.contains (regionAt e.1))
/-- The region with the most entries, the lowest number on a tie. -/
def mostEntries (m : KMap RouterId Marks) : Region :=
  (allFin 192).foldl (fun a r => if entriesIn m a < entriesIn m r then r else a) 0
/-- Regions retired until the map fits. -/
def fitMap : Nat → KMap RouterId Marks → List Region
  | 0, _ => []
  | n + 1, m => if m.length ≤ 6144 then [] else mostEntries m :: fitMap n (withoutRegions m [mostEntries m])
/-- The regions that a map retires: those with more than 32 defective cores first, then those that must go for it to fit. -/
def mapRetires (m : KMap RouterId Marks) : List Region :=
  let full := (allFin 192).filter (fun r => 32 < coresBad m r)
  full ++ fitMap 192 (withoutRegions m full)

/-- A map written to the PWR_DEFECT words. -/
def State.writeMap (s : State) (m : KMap RouterId Marks) : State :=
  let s1 := { s with regs := s.regs.filter (fun p => match p.1 with
    | .pwrDefect _ => false
    | _ => true) }
  (m.zip (allFin 6144)).foldl (fun u e =>
    u.setReg (.pwrDefect e.2) (w64 (e.1.1.px.val + e.1.1.py.val * 2 ^ 9 + e.1.2.1.toNat * 2 ^ 18 + e.1.2.2.1.toNat * 2 ^ 19
      + e.1.2.2.2.toNat * 2 ^ 20 + 2 ^ 21))) s1
/-- A link of a router dead at both of its ends, and counted in the regions of both (R167). -/
def State.killLink (s : State) (p : RouterId) (south : Bool) : State :=
  let d : Fin 4 := if south then 2 else 1
  match farEnd p south with
  | some q =>
    ((s.modRouter p (fun k => { k with dead := d :: k.dead })).modRouter q (fun k => { k with dead := opposite d :: k.dead })).bumpLink
      p q 53 48
  | none => s
/-- The dead links of routers go by their bypass from the start (R158). -/
def State.startBypass (s : State) : State :=
  { s with routers := s.routers.map (fun p => (p.1, { p.2 with bypassing := p.2.dead.filter (fun d => (s.bypassOut p.1 d).isSome) })) }
/-- The routers of defective cores are fenced: chains and routes pass them by (R156). -/
def State.fenceRouters (s : State) (m : KMap RouterId Marks) : State :=
  (m.filter (fun e => e.2.1)).foldl (fun u e => u.modRouter e.1 (fun k => { k with fenced := true })) s
/-- The dead links of a map. -/
def State.killLinks (s : State) (m : KMap RouterId Marks) : State :=
  m.foldl (fun u e =>
    let u1 := if e.2.2.1 then u.killLink e.1 false else u
    if e.2.2.2 then u1.killLink e.1 true else u1) s

/-- A core at a position is in a map. -/
def badAt (m : KMap RouterId Marks) (x y : Nat) : Bool := m.any (fun e => e.1.px.val = x && e.1.py.val = y && e.2.1)
/-- Seam port n moves to the other column, or retires, where a core at it is defective (R17). -/
def State.settleSeam (s : State) (m : KMap RouterId Marks) (n : Fin 16) : State :=
  let bad (c : Nat) : Bool := badAt m c 191 || badAt m c 192
  if !bad (32 * n.val + 15) then s
  else if !bad (32 * n.val + 16) then s.putR (.meshSeam n) 33 33 1
  else s.retireSeam n
/-- A counter store moves, or retires, where its router is defective (R168). -/
def State.settleStore (s : State) (m : KMap RouterId Marks) (h : Half) (c : Fin 16) : State :=
  let y := if h = .north then 111 else 272
  if !badAt m (32 * c.val + 15) y then s
  else if !badAt m (32 * c.val + 16) y then { s with pow := { s.pow with storesMoved := s.pow.storesMoved ++ [(h, c)] } }
  else s.retireStore h c

/-- Logical cores whose default position is defective, in ascending y and then x. -/
def State.displaced (s : State) (m : KMap RouterId Marks) : List CoreId :=
  (upTo 384).flatMap (fun y => (upTo 496).filterMap (fun x =>
    match coreOf x y with
    | some c =>
      let p := defaultPos c
      if badAt m p.px p.py && !s.regionRetired (regionOf c) then some c else none
    | none => none))
/-- A core moved to the spare of its own row, where that is free. -/
def State.remapInRow (s : State) (c : CoreId) : State :=
  match s.spareFree (regionOf c) c.ly with
  | some p => { s with pow := { s.pow with remap := kset s.pow.remap c p } }
  | none => s
/-- The remap tables: a core takes the spare of its own row first, else that of the nearest row (R14). Where several displaced cores of a
region want the same spare the spec gives no order: here every core whose row's spare is free takes it first, one core a row in ascending
x, and then the others choose in ascending y and then x (DESIGN CHOICE, log entry 88). -/
def State.remapAll (s : State) (m : KMap RouterId Marks) : State :=
  let cs := s.displaced m
  let s1 := cs.foldl State.remapInRow s
  (cs.filter (fun c => (kfind s1.pow.remap c).isNone)).foldl State.remapCore s1

/-- Regions retired at bring-up: RETIRED set. -/
def State.markAll (s : State) (rs : List Region) : State := rs.foldl (fun u r => u.putR (.pwrRegion r) 16 16 1) s
/-- PWR_REGION_n.DEFECTS of the regions that a map covers. -/
def State.countDefects (s : State) (m : KMap RouterId Marks) : State :=
  ((allFin 192).filter (fun r => !s.regionRetired r)).foldl (fun u r => u.putR (.pwrRegion r) 22 17 (min 63 (coresBad m r))) s

/-- What a test that has succeeded leaves: the map in force, regions retired, ports and stores moved or retired, remap tables, and all
cream and scratchpad zero. -/
def State.applyTest (s : State) (rep : List CoreReport) : State :=
  let cold := s.rfld .pwrState 3 3 = 1
  let m := mapAfter (if cold then [] else s.storedMap) (rep.filter (fun r => !s.regionRetired (regionAt r.core)))
  let gone := mapRetires m
  let m1 := withoutRegions m gone
  let s1 := { (((s.countDefects m).markAll gone).writeMap m1) with cores := [], routers := [] }
  let s2 := gone.foldl (fun u r => u.powerDown r) ((s1.killLinks m1).startBypass.fenceRouters m1).chooseRims
  let s3 := (allFin 16).foldl (fun u n => ((u.settleSeam m1 n).settleStore m1 .north n).settleStore m1 .south n) s2
  let s4 := ((allFin 192).filter s3.regionRetired).foldl (fun u r => u.retireParts r) s3
  let s5 := ((s4.remapAll m1).refreshMap).putR .pwrMap 0 0 1
  let s6 := { s5 with pow := { s5.pow with mapStored := true, tested := true, confirm := [] } }
  if cold then s6.putR .pwrState 4 4 0 else s6

/-- TEST: the neighbour test, the map, the remap and the clearing. -/
def execTest (ok : Bool) (full : List CoreReport) (s : State) : Result :=
  if s.modState ≠ 4 || s.pow.tested then .next s
  else if ok then .next (s.applyTest full) else .next (s.haltStart 5)

/-- READY: regions that no vat holds are switched off with cream retention (R339). -/
def execReady (ok : Bool) (s : State) : Result :=
  if s.modState ≠ 4 || !s.pow.tested then .next s
  else if !ok then .next (s.haltStart 6)
  else
    let s1 := ((allFin 192).filter (fun r => s.regionOn r && (s.ownerOf r).isNone)).foldl (fun u r => u.powerDown r) s
    .next ({ s1 with pow := { s1.pow with resetActive := false, tested := false } }.setMod 5)

/-! ## Shutdown (R353, R354) -/

/-- The shutdown sequence begins: the wake queues are emptied, and the mirrors are flushed; what the standby acknowledges until the sequence
goes on is taken (R353). tell: FAIL is to be sent (R303). -/
def State.beginShutdown (s : State) (tell : Bool) : State :=
  let waiting := (s.pow.wakeNorth ++ s.pow.wakeSouth).map Prod.snd ++ s.pow.aborted
  let s1 := waiting.foldl (fun u r => u.putR (.pwrRegion r) 15 15 0) ((s.flushMirrors.setWakes .north []).setWakes .south [])
  { s1 with pow := { s1.pow with aborted := [], tellTwin := tell, resetAsked := false } }.setMod 6
/-- The wafer's rails are on and no shutdown runs: states 2 to 5. -/
def State.inService (s : State) : Bool := 2 ≤ s.modState && s.modState ≤ 5

/-- Commits that the standby has not acknowledged are abandoned, and what waited behind them is written (R353). -/
def State.abandon (s : State) : State :=
  { s with twin := { s.twin with unacked := s.twin.unacked.filter (fun u => u.acked) } }.drainAcked
/-- Every vat stops issuing, and every stream of a vat that this module serves ends with RESET; the standby is told nothing of the
ends, for it serves on. -/
def State.stopAll (s : State) : State :=
  let s1 := s.mapVats (fun w => { w with alone := true, handing := false, pass := none })
  (allFin 64).foldl (fun u v => if s.standby v then u.haltVat v else (u.haltVat v).endAll v) s1
/-- Steps 1 to 3 of the sequence: FAIL where it is due, the end of every stream, and the parking. -/
def State.closeDown (s : State) (tell : Bool) : State :=
  ((if tell then s.sendFail (fun _ => true) else s).abandon.stopAll).park

/-- SHUTDOWN: the sequence runs to OFF. -/
def execShutdown (s : State) : Result :=
  if s.modState ≠ 6 then .next s else .next ((s.closeDown s.pow.tellTwin).railsOff 0)

/-- PWR_CTRL_OFF: a write of 0xA5 starts the sequence. -/
def execPwrCtrlOff (value : Word64) (s : State) : Result :=
  if s.inService && decide (fld value 7 0 = 0xA5) then .next (s.beginShutdown true) else .next s

/-! ## Input (R337, R338, R354, R390) -/

/-- The state in which an interruption of power leaves the input's mark: the off that follows is not a commanded one. -/
def State.failedOff (s : State) : State := { s with pow := { s.pow with prevFail := s.pow.prevFail || decide (s.modState ≠ 0) } }
/-- The input no longer meets power-good for a cause. -/
def causeIsInput : FailCause → Bool
  | .undervoltage => true
  | .overvoltage _ => true
  | .pfWarnN => false
/-- A cause lies within the absolute maximum ratings. -/
def causeRated : FailCause → Bool
  | .overvoltage mv => mv ≤ 65000
  | _ => true
/-- A warning is raised. -/
def State.warn (s : State) (c : FailCause) : State :=
  let s1 := ((if causeIsInput c then s.putR .pwrState 5 5 0 else s).putR .pwrState 6 6 1).failedOff
  { s1 with pow := { s1.pow with lastWarn := some c, resetAsked := false } }.logEvent 0x0002 0 0 0

/-- POWER_FAIL_WARN: starts the shutdown in states 2 to 5, and else returns the module to OFF; several causes at once make one warning
(R337, R395). Beyond 65 V the module's behaviour is not specified (R390). -/
def execPowerFailWarn (cause : FailCause) (s : State) : Result :=
  if !causeRated cause then .fault .beyondRatings
  else if s.rfld .pwrState 6 6 = 1 then .next s
  else if s.inService then .next ((s.warn cause).beginShutdown true)
  else if s.modState = 6 then .next (s.warn cause)
  else .next ((s.warn cause).railsOff 0)

/-- The event log as the flash holds it. -/
def State.parkedLog (s : State) : State :=
  { s with regs := s.regs.filter (fun p => !isLog p.1) ++ s.pow.parked.filter (fun p => isLog p.1) }
/-- INPUT_LOSS: the input falls below 40 V before the sequence has ended, or is lost: the rails collapse, what was not parked is lost,
and the next start is cold (R338). -/
def execInputLoss (s : State) : Result :=
  if s.modState = 0 then .next (s.putR .pwrState 5 5 0)
  else .next (((s.failedOff.railsOff 0).parkedLog).putR .pwrState 5 5 0)

/-- INPUT_RETURNED: the input returns while the sequence runs (R354). -/
def execInputReturned (s : State) : Result :=
  if s.modState ≠ 6 || s.rfld .pwrState 7 7 = 1 then .next s else .next ((s.putR .pwrState 7 7 1).logEvent 0x0003 0 0 0)

/-! ## Module reset (R335, R355, R395) -/

/-- A module reset may be asked for. -/
def State.resetFree (s : State) : Bool := s.modState ≠ 6 && !s.pow.resetActive
/-- A request for a module reset: the first is carried out. With the rails up the mirrors are flushed, and what the standby acknowledges until
the reset is taken (R303, R353, R355). -/
def State.askReset (s : State) : State :=
  if !s.resetFree then s
  else
    let s1 := if s.inService then s.flushMirrors else s
    { s1 with pow := { s1.pow with resetAsked := true } }
/-- RESET_N_FALLING: a taken falling edge requests a module reset. -/
def execResetNFalling (s : State) : Result := .next s.askReset

/-- A module reset with the rails up: the rim and every region reset, the stacks' content and FW_OK stand, and the flash restores the
fault records; a start follows from WAKE. -/
def State.resetUp (s : State) : State :=
  let s1 := ((s.logEvent 0x0007 0 0 0).flushMirrors.closeDown true)
  let s2 := (s1.railsOff 3).putR .assayStatus 2 2 (s.rfld .assayStatus 2 2)
  let s3 := ((s2.putR .pwrState 7 7 0).putR .pwrState 10 8 0).beginStart
  { s3 with stackMem := s.stackMem, stackSingle := s.stackSingle, stackDouble := s.stackDouble, pow := { s3.pow with resetActive := true } }.unpark
/-- A module reset with the rails off: QUENCHED and the sticky fields clear, and the warden boots again. -/
def State.resetDown (s : State) : State :=
  let s1 := (((s.logEvent 0x0007 0 0 0).railsOff 0).putR .thermStatus 24 24 0).putR .pwrState 10 8 0
  s1.putR .pwrState 7 7 0

/-- MODULE_RESET: carried out in states 2 to 5 with the rails up and in OFF, CHECK and HALTED with the rails off; ignored in a shutdown
and while another runs. -/
def execModuleReset (s : State) : Result :=
  if !s.resetFree then .next s
  else if s.inService then .next s.resetUp
  else
    let u := s.resetDown
    .next { u with pow := { u.pow with resetAsked := false } }

/-! ## Quench and coolant (R303, R379, R380, R390) -/

/-- QUENCH: a sensor at 110 °C or more: FAIL for all vats, every rail cut, the log parked; the module stays OFF while QUENCHED is 1. Above
125 °C the module's behaviour is not specified. -/
def execQuench (r : Region) (temp : Nat) (s : State) : Result :=
  if 250 < temp then .fault .beyondRatings
  else if temp < 220 || s.modState < 2 || s.modState = 7 then .next s
  else
    let s1 := ((s.logEvent 0x0006 0 1 r).sendFail (fun _ => true)).park
    .next (((s1.railsOff 0).putR .thermStatus 24 24 1).putR .pwrState 4 4 1)

/-- COOLANT_HIGH: an inlet above 40 °C is logged once per excursion. Above 50 °C the behaviour is not specified. -/
def execCoolantHigh (inlet : Nat) (s : State) : Result :=
  if 100 < inlet then .fault .beyondRatings
  else if inlet ≤ 80 then
    .next ({ s with therm := { s.therm with coolantLogged := false } }.putR .thermStatus 25 25 0)
  else
    let s1 := (s.putR .thermStatus 15 8 inlet).putR .thermStatus 25 25 1
    if s.therm.coolantLogged then .next s1
    else .next ({ s1 with therm := { s1.therm with coolantLogged := true } }.logEvent 0x0064 0 0 0)

/-- COOLANT_SHUTDOWN: an inlet above 45 °C for 1 s starts the shutdown sequence. Above 50 °C the behaviour is not specified. -/
def execCoolantShutdown (inlet : Nat) (s : State) : Result :=
  if 100 < inlet then .fault .beyondRatings
  else if 90 < inlet && s.inService then .next (s.beginShutdown false) else .next s

end Sys2Proof.Machine
end

