-- ==== Sys2Proof/Machine/Thermal.lean ====
section
/-! DEFINITION. Thermal control: sensors and the model, throttling, the stretching of beats (R374 to R377). -/

namespace Sys2Proof.Machine

/-! ## Readings (R374, R377) -/

/-- DUTY of a region. -/
def State.duty (s : State) (r : Region) : Nat := s.rfld (.pwrRegion r) 13 8
/-- The model's temperature of a region. -/
def State.modelOf (s : State) (r : Region) (inlet : Nat) : Nat := Config.modelTemp (s.stepOf r) (s.duty r) inlet
/-- Two temperatures differ by more than a bound. -/
def apart (a b d : Nat) : Bool := a + d < b || b + d < a
/-- A sensor is ignored: it differs by more than 10 °C from the model and from the neighbouring regions' sensors. -/
def ignored (model : Nat) (p : Nat × Bool) : Bool := p.2 && apart p.1 model 20
/-- The reading of a region and whether a sensor was ignored; the model stands in for an ignored one. -/
def State.readSensors (s : State) (x : ThermReading) (inlet : Nat) : Nat × Bool :=
  let m := s.modelOf x.region inlet
  let ps := x.sensors.zip (x.offNeighbours ++ List.replicate x.sensors.length false)
  ((ps.map (fun p => if ignored m p then m else p.1)).foldl max 0, ps.any (ignored m))
/-- TEMP, PREDICT and WARM of a region. -/
def State.noteReading (s : State) (inlet : Nat) (x : ThermReading) : State :=
  let r := x.region
  let t := s.readSensors x inlet
  let s1 := (s.putR (.thermRegion r) 7 0 (min 255 t.1)).putR (.thermRegion r) 15 8
    (min 255 (Config.predict t.1 (s.stepOf r) (s.duty r) inlet))
  let s2 := s1.setWarm r (if apart t.1 (Config.holdTarget (s.duty r) (s.reqStep r)) 4 then 0 else 1)
  if t.2 then s2.logEvent 0x0063 0 1 r else s2

/-! ## Throttling (R375) -/

/-- PREDICT of a region. -/
def State.predictOf (s : State) (r : Region) : Nat := s.rfld (.thermRegion r) 15 8
/-- The powered region with the highest PREDICT, the lowest number on a tie. -/
def State.hottest (s : State) : Option Region :=
  ((allFin 192).filter s.regionOn).foldl (fun a r =>
    match a with
    | some h => if s.predictOf h < s.predictOf r then some r else some h
    | none => some r) none
/-- A region's thermal limit; 15 is not listed. -/
def State.setLimit (s : State) (r : Region) (n : Nat) : State :=
  { s with therm := { s.therm with limit := if 15 ≤ n then kdel s.therm.limit r else kset s.therm.limit r n } }
/-- The limit of the hottest region lowered: one below the lower of its step and the step toward which it glides. -/
def State.throttle (s : State) (r : Region) : State :=
  (s.setLimit r (min (s.stepOf r) (s.stepTarget r) - 1)).bumpR .thermStatus 47 32 1
/-- A region below RELEASE_AT has its limit raised by one step, unless the ramp bound holds it. -/
def State.release_ (s : State) (r : Region) : State :=
  if s.predictOf r < s.rfld .thermCtrl 15 8 && !Config.rampHeld r s.now then s.setLimit r (s.thermLimit r + 1) else s
/-- The window's decision: one region lowered, the cool ones raised. -/
def State.regulate (s : State) : State :=
  match s.hottest with
  | none => s
  | some h =>
    let hot := decide (s.rfld .thermCtrl 7 0 ≤ s.predictOf h)
    let s1 := if hot then s.throttle h else s
    ((s.therm.limit.map Prod.fst).filter (fun r => !(hot && decide (r = h)))).foldl State.release_ (s1.putR .thermStatus 7 0 h)

/-- Windows counted: those in a row in which a region is throttled, and those in which no region of a vat is (R376). -/
def State.countWindow (s : State) : State :=
  let hotR (r : Region) : Bool := s.rfld (.thermRegion r) 20 20 = 1
  let calm (v : VatId) : Bool := (s.regionsOf v).all (fun r => !hotR r)
  { s with therm := { s.therm with
      hotWindows := ((allFin 192).filter hotR).map (fun r => (r, kget 0 s.therm.hotWindows r + 1)),
      calmWindows := ((allFin 64).filter calm).map (fun v => (v, kget 0 s.therm.calmWindows v + 1)) } }

/-- The coolant as a window reports it; an excursion above 40 °C ends when the inlet is back at it (R380, R384). -/
def State.noteCoolant (s : State) (inlet outlet : Nat) : State :=
  let s1 := ((s.putR .thermStatus 15 8 (min 255 inlet)).putR .thermStatus 23 16 (min 255 outlet)).putR .thermStatus 25 25
    (if 80 < inlet then 1 else 0)
  { s1 with therm := { s1.therm with coolantLogged := s1.therm.coolantLogged && decide (80 < inlet) } }

/-- A thermal window is under way: one of 1 ms, half-open, with the ticks it had when it started (R52). -/
def State.inWindow (s : State) : Bool := s.therm.window.any (fun p => !windowOver p.1 p.2 s.now)
/-- THERMAL_WINDOW: the first tick of a 1 ms thermal window: the readings, then the controller's decision (R374, R375). -/
def execThermalWindow (inlet outlet : Nat) (readings : List ThermReading) (s0 : State) : Result :=
  if s0.modState < 2 || s0.modState = 7 || s0.inWindow then .next s0
  else
    let s := { s0 with therm := { s0.therm with window := some (s0.now, s0.winTicks 1000000) } }
    let s1 := (readings.filter (fun x => s.regionOn x.region)).foldl (fun u x => u.noteReading inlet x) (s.noteCoolant inlet outlet)
    .next ((((allFin 192).filter s1.regionOn).foldl State.refreshThrottled s1.regulate).countWindow)

/-! ## Stretching (R376) -/

/-- A region of the vat has been throttled for 100 windows in a row. -/
def State.longHot (s : State) (v : VatId) (r : Region) : Bool := s.holds v r && 100 ≤ kget 0 s.therm.hotWindows r
/-- STRETCH: with AUTO = 1, ADD rises by 1, and the count starts again. -/
def execStretch (v : VatId) (s : State) : Result :=
  let add := s.rfld (.thermVat v) 4 1
  if s.rfld (.thermVat v) 0 0 = 0 || 15 ≤ add || !(allFin 192).any (s.longHot v) then .next s
  else
    let s1 := (s.putR (.thermVat v) 4 1 (add + 1)).logEvent 0x0062 0 7 v
    .next { s1 with therm := { s1.therm with hotWindows := s1.therm.hotWindows.filter (fun p => !s.longHot v p.1) } }
/-- STRETCH_RELEASE: after 1,000 windows without throttling ADD falls by 1, and the count starts again. -/
def execStretchRelease (v : VatId) (s : State) : Result :=
  let add := s.rfld (.thermVat v) 4 1
  if add = 0 || kget 0 s.therm.calmWindows v < 1000 then .next s
  else .next ({ s with therm := { s.therm with calmWindows := kdel s.therm.calmWindows v } }.putR (.thermVat v) 4 1 (add - 1))

end Sys2Proof.Machine
end

