-- ==== Sys2Proof/Machine/Faults.lean ====
section
/-! DEFINITION. Faults of halves, converter groups, fuses and stack channels (R21, R33, R255, R303, R364, R367 to R373). -/

namespace Sys2Proof.Machine

/-! ## Halves (R21, R33, R303, R364) -/

/-- The regions of a half. -/
def regionsIn (h : Half) : List Region := (allFin 192).filter (fun r => halfOf r == h)
/-- A half's generator runs or not. -/
def State.setRuns (s : State) (h : Half) (b : Bool) : State :=
  match h with
  | .north => { s with runNorth := b }
  | .south => { s with runSouth := b }
/-- A half's tick number set. -/
def State.setTick (s : State) (h : Half) (n : Nat) : State :=
  match h with
  | .north => { s with tickNorth := n }
  | .south => { s with tickSouth := n }
/-- A scheduler of a seam port. -/
def isSeam : SharedPort → Bool
  | .mesh q => (seamOf q).isSome
  | _ => false
/-- The seam closed: what it has not accepted is discarded, and so will be the further flits of messages gathered in part (R21). -/
def State.closeSeam (s : State) : State :=
  { s with seams := (allFin 16).map (fun n =>
             let sp := kget {} s.seams n
             (n, { closed := true, skip := sp.skip ++ (sp.gather.flatMap (fun g => g.2.map Flit.mid)).eraseDups }))
           scheds := s.scheds.filter (fun p => !isSeam p.1.1) }
/-- The seam retrained: the ports take traffic again, but for the rest of a message whose first flits they discarded. -/
def State.openSeam (s : State) : State := { s with seams := s.seams.map (fun p => (p.1, { p.2 with closed := false })) }

/-- HALF_FAULT: a half's power, clock or tick generator fails: FAIL for the vats with a region in it, which stop with VATFAULT; its
regions lose power, and the seam closes. A second fault within an hour leaves the half off, and the next start is cold. -/
def execHalfFault (h : Half) (s : State) : Result :=
  if !s.runs h then .next s
  else
    let again := s.pow.halfFaults.any (fun p => p.1 == h && !windowOver p.2.1 p.2.2 s.now)
    let s1 := (s.logEvent 0x0005 0 0 (halfIndex h)).sendFail (fun v => s.inHalf v h)
    let s2 := ((allFin 64).filter (fun v => s.inHalf v h)).foldl (fun u v =>
      u.vatFault v (cornerOf (((s.regionsOf v).find? (fun r => halfOf r == h)).getD 0))) s1
    let s3 := (((regionsIn h).filter s.regionOn).foldl State.powerDown s2).closeSeam.setRuns h false
    let s4 := { s3 with pow := { s3.pow with
      halvesDown := s3.pow.halvesDown ++ [h], halfFaults := s3.pow.halfFaults ++ [(h, s.now, s.hour)],
      halvesLeftOff := if again then s3.pow.halvesLeftOff ++ [h] else s3.pow.halvesLeftOff } }
    .next (if again then s4.putR .pwrState 4 4 1 else s4)

/-- Cores and routers of a half as a restart leaves them: cleared; dead links stay dead and fenced routers fenced. -/
def State.clearHalf (s : State) (h : Half) : State :=
  { s with cores := s.cores.filter (fun p => halfOf (regionOf p.1) != h)
           routers := s.routers.map (fun p => if halfOf (regionAt p.1) == h then (p.1, { dead := p.2.dead, fenced := p.2.fenced, bypassing := p.2.bypassing }) else p) }
/-- HALF_RESTART_DONE: WAKE and a quick TEST of the half are done: its cream is clear, its tick is the other half's, its held regions run
at step 10, and the seam opens when both halves run. -/
def execHalfRestartDone (h : Half) (s : State) : Result :=
  if !s.pow.halvesDown.contains h || s.pow.halvesLeftOff.contains h || !s.barUp then .next s
  else
    let rs := (regionsIn h).filter (fun r => !s.regionRetired r)
    let s1 := (rs.foldl (fun u r => u.bumpR (.pwrWake (halfIndex h)) 31 8 1 |>.putR (.pwrRegion r) 15 15 0) (s.clearHalf h)).setTick h
      (s.tickOf (otherHalf h))
    let s2 := (rs.filter (fun r => (s.ownerOf r).isSome)).foldl
      (fun u r => (u.putR (.pwrRegion r) 14 14 1).putR (.thermRegion r) 19 16 10) (s1.setRuns h true)
    let s3 := { s2 with pow := { s2.pow with halvesDown := s2.pow.halvesDown.filter (fun x => x ≠ h),
                                             fenced := s2.pow.fenced.filter (fun r => halfOf r != h),
                                             needRelock := s2.pow.needRelock.filter (fun r => halfOf r != h) } }
    .next (if s3.pow.halvesDown.isEmpty then s3.openSeam else s3)

/-! ## Converter groups (R369 to R373) -/

/-- The regions of a group. -/
def regionsOfGroup (g : Group) : List Region := (allFin 192).filter (fun r => groupOf r = g)
/-- A group's lower region, which names it in an event. -/
def lowerOf (g : Group) : Nat := 2 * g.val

/-- SENSE_BROKEN: a pair disagrees: it is flagged; when both are, the group regulates on the droop monitors, with FW_MAX at most 12. It
stops no vat. -/
def execSenseBroken (g : Group) (pairB : Bool) (s : State) : Result :=
  let b := if pairB then 1 else 0
  if s.rfld (.pwrGroup g) b b = 1 || !s.barUp then .next s
  else
    let s1 := (s.putR (.pwrGroup g) b b 1).logEvent 0x0050 0 1 (lowerOf g)
    if s.rfld (.pwrGroup g) (1 - b) (1 - b) = 0 then .next s1
    else
      let s2 := s1.putR (.pwrGroup g) 2 2 1
      let s3 := { s2 with therm := { s2.therm with droopCap := s2.therm.droopCap ++ regionsOfGroup g } }
      .next ((regionsOfGroup g).foldl (fun u r => (u.deriveFwMax r).refreshThrottled r) s3)

/-- SUPPLY_FAULT: both regions are fenced and lose power, and their vats stop by hardware stop; a second fault within an hour retires
both, else the converter restarts. -/
def execSupplyFault (g : Group) (s : State) : Result :=
  if !s.barUp || s.pow.restarting.contains g then .next s
  else
    let again := s.pow.supplyTicks.any (fun p => p.1 = g && !windowOver p.2.1 p.2.2 s.now)
    let s1 := (s.bumpR (.pwrGroup g) 15 12 1).logEvent 0x0051 (statusCode .vatfault) 1 (lowerOf g)
    let s2 := { s1 with pow := { s1.pow with supplyTicks := s1.pow.supplyTicks ++ [(g, s.now, s.hour)] } }
    if again then .next ((regionsOfGroup g).foldl State.retireRegion s2)
    else
      let s3 := (regionsOfGroup g).foldl (fun u r => (((u.fenceRegion r).mapRegion r Core.halt).stopHolder r .vatfault).powerDown r) s2
      .next { s3 with pow := { s3.pow with restarting := s3.pow.restarting ++ [g] } }

/-- A fenced region back in use. -/
def State.unfence (s : State) (r : Region) : State := { s with pow := { s.pow with fenced := s.pow.fenced.filter (fun x => x ≠ r) } }
/-- CONVERTER_RESTART: after 1 ms the converter restarts once: on success the cream of its regions is zeroed, and those that a vat holds
are woken with a full relock; else they stay fenced. -/
def execConverterRestart (g : Group) (ok : Bool) (s : State) : Result :=
  if !s.pow.restarting.contains g then .next s
  else
    let s1 := { s with pow := { s.pow with restarting := s.pow.restarting.filter (fun x => x ≠ g) } }
    if !ok then .next s1
    else
      .next (((regionsOfGroup g).filter (fun r => !s.regionRetired r)).foldl (fun u r =>
        let w := ((u.zeroRegion r).unfence r).wantRelock r
        if (s.ownerOf r).isSome then w.requestWake r else w) s1)

/-- BUMP_SUSPECT: the drop beyond the load model is recorded; above 25 mV FW_MAX is capped at step 8 and the region awaits retirement; for
a twinned active vat the retirement, and with it the handover, comes at once. -/
def execBumpSuspect (r : Region) (drop : Nat) (s : State) : Result :=
  let g := groupOf r
  let i := r.val % 2
  if !s.regionOn r || s.regionRetired r then .next s
  else
    let s1 := s.putR (.pwrGroup g) (23 + 8 * i) (16 + 8 * i) (min 255 drop)
    if drop ≤ 25 || s.rfld (.pwrGroup g) (3 + i) (3 + i) = 1 then .next s1
    else
      let s2 := ((s1.putR (.pwrGroup g) (3 + i) (3 + i) 1).putR (.pwrGroup g) (7 + i) (7 + i) 1).logEvent 0x0052 0 1 r
      let s3 := ({ s2 with therm := { s2.therm with capped := s2.therm.capped ++ [r] } }.deriveFwMax r).refreshThrottled r
      .next (match s.ownerOf r with
        | some v => if s.mirroring v then s3.retireRegion r else s3
        | none => s3)

/-- FUSE_TRIP: a shorted rail trips the region's fuse, and the region is retired. -/
def execFuseTrip (r : Region) (s : State) : Result :=
  let b := 5 + r.val % 2
  if s.rfld (.pwrGroup (groupOf r)) b b = 1 || !s.barUp then .next s
  else .next (((s.putR (.pwrGroup (groupOf r)) b b 1).logEvent 0x0053 0 1 r).retireRegion r)

/-! ## Stack channels (R241, R255) -/

/-- A vat whose press copy has a slice at a stack's site. -/
def State.slicedAt (s : State) (k : Fin 24) (v : VatId) : Bool :=
  ((s.vat v).ingot.any (fun g => g.pressCopy))
    && (sitePresses k).any (fun n => s.rfld (.glbPress n) 6 6 = 1 && s.rfld (.glbPress n) 5 0 = v.val)
/-- Its PAUSE is set after the current pass, and the slices of the site's presses are to be written again. -/
def State.pauseCopy (s : State) (k : Fin 24) (v : VatId) : State :=
  let s1 := s.modVat v (fun w => { w with copied := w.copied.filter (fun n => pressSite n ≠ k) })
  if (s.vat v).pass.isNone then s1.putV v .vatPrefill 18 18 1 else s1.modVat v (fun w => { w with pressStale := true })
/-- An embedding table or overflow layer of a vat has granules in a fenced channel: the vat is quiesced (R255). -/
def State.quiesceLost (s : State) (k : Fin 24) (ch : Fin 32) (v : VatId) : State :=
  let hit (a n : Nat) : Bool := (granules a n).any (fun g => stackPlace g == some (k.val, g / 4096 / 24 * 4096) && g / 4096 / 24 % 32 = ch.val)
  if s.vstate v = 2 && ((s.vat v).ingot.any (fun g => g.tables.any (fun t => hit t.1 t.2))) then s.setVstate v 3 else s
/-- The channel has returned double-bit errors at three distinct addresses within one hour (R255). -/
def State.threeErrors (s : State) (k : Fin 24) (ch : Fin 32) : Bool :=
  3 ≤ (((s.stackLog.filter (fun e => e.1 = 32 * k.val + ch.val && !windowOver e.2.2.1 e.2.2.2 s.now)).map (fun e => e.2.1)).eraseDups).length
/-- The channel a cause names, and whether the cause stands: the errors are counted, a failed retraining is told. -/
def causeChannel : ChannelCause → Fin 32
  | .threeErrors ch | .retraining ch => ch
def State.channelFails (s : State) (k : Fin 24) : ChannelCause → Bool
  | .threeErrors ch => s.threeErrors k ch
  | .retraining _ => true
/-- CHANNEL_RETIRED: a channel that has returned double-bit errors at three addresses within an hour, or fails retraining, is fenced at
once; with its last channel the stack retires, and its presses with it (R255). -/
def execChannelRetired (k : Fin 24) (cause : ChannelCause) (s : State) : Result :=
  let ch := causeChannel cause
  if s.rfld (.glbStack k) ch ch = 1 || !s.barUp || !s.channelFails k cause then .next s
  else
    let s1 := (s.putR (.glbStack k) ch ch 1).logEvent 0x0041 0 3 (32 * k.val + ch.val)
    let s2 := if s1.rfld (.glbStack k) 31 0 = maskOf 31 0 then s1.retireStack k else s1
    let s3 := ((allFin 64).filter (s.slicedAt k)).foldl (fun u v => u.pauseCopy k v) s2
    .next ((allFin 64).foldl (fun u v => u.quiesceLost k ch v) s3)

end Sys2Proof.Machine
end

