-- ==== Sys2Proof/Machine/Cells.lean ====
section
/-! DEFINITION. The cells of a device link: the CRC, the tag, the packet header, and a packet as cells (R286, R287). -/

namespace Sys2Proof.Machine

/-- One bit into the CRC of polynomial 0x1021. -/
def crcBit (r : BitVec 16) (b : Bool) : BitVec 16 := if r.msb ^^ b then (r <<< 1) ^^^ 0x1021 else r <<< 1
/-- One byte, its most significant bit first. -/
def crcByte (r : BitVec 16) (b : Byte) : BitVec 16 := ([7, 6, 5, 4, 3, 2, 1, 0] : List Nat).foldl (fun x i => crcBit x (b.getLsbD i)) r
/-- CRC-16 over bytes in order, from 0 and without a final inversion (log entry 93). -/
def crc16 (bs : List Byte) : BitVec 16 := bs.foldl crcByte 0

/-- A cell: a 32-byte frame, then the tag: KIND, END, and the CRC over the frame and the tag's low half. -/
def cellBytes (kind : Nat) (fin : Bool) (frame : List Byte) : List Byte :=
  let low := leBytes 2 (kind + 4 * fin.toNat)
  frame ++ low ++ leBytes 2 (crc16 (frame ++ low)).toNat

/-- The 32-byte header of a packet (R287). -/
def headerBytes (p : Packet) : List Byte :=
  leBytes 1 p.ty.toNat ++ leBytes 1 (p.last.toNat + 2 * p.signal.toNat + 4 * p.reroute.toNat) ++ leBytes 2 p.srcDev.toNat
    ++ leBytes 2 p.dstDev.toNat ++ leBytes 1 p.srcVat ++ leBytes 1 p.dstVat ++ leBytes 2 p.length.toNat ++ leBytes 2 p.tag.toNat
    ++ leBytes 2 p.lseq.toNat ++ leBytes 1 p.origLink.toNat ++ leBytes 1 p.status.toNat ++ leBytes 8 p.addr.toNat
    ++ leBytes 4 (p.sigVid.toNat + 4096 * p.sigVal.toNat) ++ leBytes 4 0
/-- A vat number in the low six bits of a byte. -/
def vatAt (bs : List Byte) (i : Nat) : VatId := ⟨leAt bs i 1 % 64, Nat.mod_lt _ (by decide)⟩
/-- The packet that a header begins. -/
def packetOf (h : List Byte) : Packet :=
  let flags := leAt h 1 1
  { ty := BitVec.ofNat 8 (leAt h 0 1), last := decide (flags % 2 = 1), signal := decide (flags / 2 % 2 = 1),
    reroute := decide (flags / 4 % 2 = 1), srcDev := BitVec.ofNat 16 (leAt h 2 2), dstDev := BitVec.ofNat 16 (leAt h 4 2),
    srcVat := vatAt h 6, dstVat := vatAt h 7, length := BitVec.ofNat 16 (leAt h 8 2), tag := BitVec.ofNat 16 (leAt h 10 2),
    lseq := BitVec.ofNat 16 (leAt h 12 2), origLink := BitVec.ofNat 8 (leAt h 14 1), status := BitVec.ofNat 8 (leAt h 15 1),
    addr := BitVec.ofNat 64 (leAt h 16 8), sigVid := BitVec.ofNat 12 (leAt h 24 4), sigVal := BitVec.ofNat 16 (leAt h 24 4 / 4096) }

/-- A packet's payload in frames of 32 bytes, the last one padded with zeros. -/
def framesOf : Nat → List Byte → List (List Byte)
  | 0, _ => []
  | n + 1, bs => ((bs ++ List.replicate 32 0).take 32) :: framesOf n (bs.drop 32)
/-- The cells of a packet: the head, then its payload, the last cell with END (R287). -/
def cellsOf (p : Packet) : List (List Byte) :=
  let n := (p.data.length + 31) / 32
  cellBytes 1 false (headerBytes p)
    :: ((framesOf n p.data).zip (List.range n)).map (fun x => cellBytes 2 (decide (x.2 + 1 = n)) x.1)

/-- A cell as its tag shows it, damaged where its CRC fails. -/
inductive Cell where
  | idle
  | head (fin : Bool) (p : Packet)
  | payload (fin : Bool) (bytes : List Byte)
  | control
  | damaged
  deriving DecidableEq, Repr

/-- The 36 bytes of a cell read (R286). -/
def cellOf (bs : List Byte) : Cell :=
  let tag := leAt bs 32 2
  let fin := decide (tag / 4 % 2 = 1)
  if leAt bs 34 2 ≠ (crc16 (bs.take 34)).toNat then .damaged
  else
    match tag % 4 with
    | 0 => .idle
    | 1 => .head fin (packetOf (bs.take 32))
    | 2 => .payload fin (bs.take 32)
    | _ => .control

end Sys2Proof.Machine
end

