-- ==== Sys2Proof/Machine/Load.lean ====
section
/-! DEFINITION. Loading an ingot: the segment table and its checks (R20, R117, R182, R183, R188, R345, R357), segments (R356 to R358) and
the vat's becoming LOADED. A table and its items name places as the ingot records them; the loader moves them when it is placed shifted
(R188, log entry 31). -/

namespace Sys2Proof.Machine

/-! ## Checks of the segment table -/

/-- The B1 values of R182's size parameters, in its order, a row's several numbers one after another. -/
def sizeValues : List Nat := [16, 32, 64, 8, 64, 32, 2048, 98304, 3072, 512, 2, 4096, 2, 4, 2112, 4, 32768, 4096, 4096, 64]
/-- The B1 values of R182's exact parameters; the hop and crossing times of R146 are entry, hop, crossing cycle, crossing ns, delivery. -/
def exactValues : List Nat := [8, 16, 4, 32, 8, 1, 1, 256, 32, 1, 2, 1, 8, 1, 4, 8]
/-- The first parameter of a list, by its place, that exceeds its B1 value, or that differs from it. -/
def firstOver (xs ys : List Nat) : Option Nat := (xs.zip ys).findIdx? (fun p => decide (p.2 < p.1))
def firstOther (xs ys : List Nat) : Option Nat := (xs.zip ys).findIdx? (fun p => decide (p.1 ≠ p.2))
/-- Version and parameters: the first offending item in R183's order; a list that leaves parameters out offends at its end. -/
def versionFault (g : IngotTable) : Option LoadRefusal :=
  if g.major ≠ 1 then some .major
  else if 2 < g.minor then some .minor
  else if (firstOver g.sizes sizeValues).isSome then (firstOver g.sizes sizeValues).map .size
  else if g.sizes.length ≠ sizeValues.length then some (.size (min g.sizes.length sizeValues.length))
  else if g.isStatic && (firstOther g.exacts exactValues).isSome then (firstOther g.exacts exactValues).map .exact
  else if g.isStatic && g.exacts.length ≠ exactValues.length then some (.exact (min g.exacts.length exactValues.length))
  else none
/-- Version and parameters (R183). -/
def versionGood (g : IngotTable) : Bool := (versionFault g).isNone

/-- A region moved by a shift, when the grid has it. -/
def shiftRegion (g : IngotTable) (r : Region) : Option Region :=
  let col : Int := (r.val % 16 : Nat) + g.dc
  let row : Int := (r.val / 16 : Nat) + g.dr
  if 0 ≤ col ∧ col < 16 ∧ 0 ≤ row ∧ row < 12 then toFin? 192 (16 * row.toNat + col.toNat) else none
/-- The regions that a placement takes on this wafer. -/
def placedRegions (g : IngotTable) : List Region := g.regions.filterMap (shiftRegion g)
/-- A shift is allowed: every region stays in its own half, and an image in both halves moves no rows (R188). -/
def shiftGood (g : IngotTable) : Bool :=
  (decide (g.dc = 0) && decide (g.dr = 0))
    || (g.relocatable && g.regions.all (fun r => match shiftRegion g r with
        | some q => halfOf q == halfOf r
        | none => false)
      && (decide (g.dr = 0) || !(g.regions.any (fun r => halfOf r == .north) && g.regions.any (fun r => halfOf r == .south))))
/-- A number moved by a shift, held to a range. -/
def shiftNat (n : Nat) (d : Int) (top : Nat) : Nat := min ((n : Int) + d).toNat top
/-- A core and a router moved by a shift. -/
def shiftCore (g : IngotTable) (c : CoreId) : CoreId :=
  (coreOf (shiftNat c.lx.val (31 * g.dc) 495) (shiftNat c.ly.val (32 * g.dr) 383)).getD c
def shiftRouter (g : IngotTable) (r : RouterId) : RouterId :=
  match toFin? 512 (shiftNat r.px.val (32 * g.dc) 511), toFin? 384 (shiftNat r.py.val (32 * g.dr) 383) with
  | some x, some y => ⟨x, y⟩
  | _, _ => r
/-- What a segment table names, moved by its shift. -/
def movedTable (g : IngotTable) : IngotTable :=
  { g with
    stages := g.stages.map (fun x => { x with
      cores := x.cores.map (shiftCore g)
      spans := x.spans.map (fun p => { p with sender := shiftCore g p.sender
                                              receivers := p.receivers.map (fun c => (shiftCore g c.1, c.2)) }) })
    headerAt := g.headerAt.map (fun p => (shiftCore g p.1, p.2)) }
/-- A word with a core's logical coordinates, x in [8:0] and y in [17:9], moved: 31 × dc and 32 × dr are added to its fields (R188). -/
def movedWord (g : IngotTable) (w : Nat) : Nat :=
  w / 2 ^ 18 * 2 ^ 18 + ((w % 2 ^ 9 : Nat) + 31 * g.dc).toNat % 2 ^ 9 + ((w / 2 ^ 9 % 2 ^ 9 : Nat) + 32 * g.dr).toNat % 2 ^ 9 * 2 ^ 9
/-- The words of the relocation list among the bytes of a core from an address on. -/
def movedBytes (g : IngotTable) (c : CoreId) (a : Nat) (bs : List Byte) : List Byte :=
  g.reloc.foldl (fun acc r =>
    match r with
    | .data d x =>
      if d = c ∧ a ≤ x ∧ x + 4 ≤ a + bs.length then
        acc.take (x - a) ++ leBytes 4 (movedWord g (leAt acc (x - a) 4)) ++ acc.drop (x - a + 4)
      else acc
    | .code _ _ => acc) bs
/-- A route entry moved: its ranges of columns and rows move with the image; DST_PY 0x1FF names the rim (R147). -/
def movedRoute (g : IngotTable) (w : Word64) : Word64 :=
  let x (lo : Nat) : Nat := shiftNat (fld w (lo + 8) lo) (32 * g.dc) 511
  let y (lo : Nat) : Nat := if fld w (lo + 8) lo = 511 then 511 else shiftNat (fld w (lo + 8) lo) (32 * g.dr) 383
  putFld (putFld (putFld (putFld w 8 0 (x 0)) 17 9 (x 9)) 26 18 (y 18)) 35 27 (y 27)
/-- A counter register moved: the store's column moves with the image (R168, R171), and so does the notify rectangle (R173). -/
def movedReg (g : IngotTable) (r : VatReg) (w : Word64) : Word64 :=
  match r with
  | .syncMap _ => if bitAt w 0 then putFld w 15 2 (shiftNat (fld w 15 2) (1024 * g.dc) 16383) else w
  | .ctr _ 1 =>
    if w = 0 then w
    else
      let x (lo : Nat) : Nat := shiftNat (fld w (lo + 8) lo) (31 * g.dc) 495
      let y (lo : Nat) : Nat := shiftNat (fld w (lo + 8) lo) (32 * g.dr) 383
      putFld (putFld (putFld (putFld w 8 0 (x 0)) 17 9 (x 9)) 26 18 (y 18)) 35 27 (y 27)
  | _ => w
/-- An item as the loader writes it, moved by the ingot's shift (R188). -/
def movedItem (g : IngotTable) (i : SegItem) : SegItem :=
  if g.dc = 0 ∧ g.dr = 0 then i
  else
    match i with
    | .mem c a bs => .mem (shiftCore g c) a (movedBytes g c a bs)
    | .imem c n w => .imem (shiftCore g c) n (if g.reloc.contains (.code c n) then putFld w 63 32 (movedWord g (fld w 63 32)) else w)
    | .wb c b => .wb (shiftCore g c) b
    | .route r n w => .route (shiftRouter g r) n (movedRoute g w)
    | .slot r o e w => .slot (shiftRouter g r) o e w
    | .reg r w => .reg r (movedReg g r w)
    | .duty r d q => .duty ((shiftRegion g r).getD r) d q
    | .lead r n => .lead ((shiftRegion g r).getD r) n
    | .stack a bs => .stack a bs
    | .press n bs p => .press n bs p
    | .raw a bs => .raw a bs
/-- A seam port works and joins two regions of a list. -/
def State.seamAmong (s : State) (rs : List Region) : Bool :=
  (allFin 16).any (fun n => s.rfld (.meshSeam n) 32 32 = 0 && rs.any (fun r => r.val = 80 + n.val) && rs.any (fun r => r.val = 96 + n.val))
/-- The placement: the first thing that offends: the shift, a region that is not the vat's, unretired and on, a stage with a core elsewhere,
or routes over the seam without a port (R20, R188, R345, R358). -/
def State.placementFault (s : State) (v : VatId) (g : IngotTable) : Option LoadRefusal :=
  let rs := placedRegions g
  if !shiftGood g || rs.length ≠ g.regions.length then some .shift
  else
    match rs.find? (fun r => !(s.holds v r && !s.regionRetired r && s.regionOn r)) with
    | some r => some (.region r)
    | none =>
      match g.stages.findIdx? (fun x => !x.cores.all (fun c => rs.contains (regionOf c))) with
      | some k => some (.stageCore k)
      | none => if g.crossesSeam && !s.seamAmong rs then some .seam else none
def State.placementGood (s : State) (v : VatId) (g : IngotTable) : Bool := (s.placementFault v g).isNone
/-- The KV layout: the first stage of the ring that breaks R117, or the first beyond 256 KV-bearing ones. -/
def layoutFault (g : IngotTable) : Option LoadRefusal :=
  (((upTo g.stages.length).zip g.stages).find? (fun p =>
    match p.2.kvStage with
    | some w => !confGood g.kvConf || !bitAt w 40 || !stageGood g.kvConf w (some p.2)
        || 256 ≤ ((g.stages.take p.1).filter (fun x => x.kvStage.isSome)).length
    | none => false)).map (fun p => .kvLayout p.1)
def layoutGood (g : IngotTable) : Bool := (layoutFault g).isNone

/-! ## Spans of the weight bus (R70) -/

/-- A receiver has been moved out of its span. -/
def State.movedOut (s : State) (sp : Sys2Proof.SpanShape) (c : CoreId) : Bool :=
  !(upTo sp.count).any (fun h => spanPos (s.posOf sp.sender) sp.dir (h + 1) == some (s.posOf c))
/-- The first line of a stage's KV area: a weight area has room up to it (R26, R117). -/
def StageInfo.kvLine (x : Sys2Proof.StageInfo) : Nat :=
  match x.kvStage with
  | some w => if bitAt w 40 then fld w 11 0 else 3072
  | none => 3072
/-- The first span with a receiver that has been moved out of it and whose weight area has no room for the span's lines. -/
def State.spanFault (s : State) (g : IngotTable) : Option LoadRefusal :=
  ((upTo g.stages.length).zip g.stages).findSome? (fun p =>
    (p.2.spans.findIdx? (fun sp => sp.receivers.any (fun c =>
      s.movedOut sp c.1 && StageInfo.kvLine p.2 < (s.core c.1).wb + sp.lines))).map (fun i => .span p.1 i))
/-- A receiver's instruction turned into a local sweep from a line: SRC and SPAN 0, LINE as given (R191). -/
def localSweep (w : Word64) (line : Nat) : Word64 := putFld (putFld (putFld w 19 8 line) 58 55 0) 63 59 0
/-- A moved receiver takes the span's lines into its own weight area, and sweeps them there. -/
def State.copySpan (s : State) (sp : Sys2Proof.SpanShape) (c : CoreId) (i : Fin 2048) : State :=
  let bs := memBytes (s.core sp.sender).mem (512 * sp.line) (512 * sp.lines)
  s.modCore c (fun k =>
    let line := k.wb
    { k.healed (512 * line) bs.length with
      wb := line + sp.lines, mem := memPut k.mem (512 * line) bs, imem := kset k.imem i (localSweep (kget 0 k.imem i) line) })
/-- Every moved receiver of a placement set to sweep locally. -/
def State.copySpans (s : State) (g : IngotTable) : State :=
  (g.stages.flatMap StageInfo.spans).foldl (fun u sp =>
    (sp.receivers.filter (fun c => s.movedOut sp c.1)).foldl (fun w c => w.copySpan sp c.1 c.2) u) s

/-- ASSAY_STATUS after a verdict. -/
def State.assay (s : State) (state sigBad segment : Nat) : State :=
  ((s.putR .assayStatus 1 0 state).putR .assayStatus 3 3 sigBad).putR .assayStatus 31 4 segment
/-- The assay unit refuses an ingot. -/
def State.assayRefuse (s : State) (sigBad segment : Nat) : State := (s.assay 3 sigBad segment).logEvent 0x0090 0 0 0

/-- A vat's placement forgotten. -/
def State.unload (s : State) (v : VatId) : State :=
  s.modVat v (fun w => { w with ingot := none, landed := [], stackWrites := [], regWrites := [], tableWrites := [], placed := false })
/-- The loader's report of a refusal (R70, R117, R183, R345). -/
def State.reportLoad (s : State) (v : VatId) (x : LoadRefusal) : State := s.modVat v (fun w => { w with loadReport := some x })

/-- SEGMENT_TABLE: an ingot is presented to a vat that is FREE, LOADED or, for a resize (R264), QUIESCED. A LOADED vat becomes FREE. The
loader's checks and the assay unit's decide whether segments are taken; a refusal names what offends. -/
def execSegmentTable (v : VatId) (t : IngotTable) (sigOk : Bool) (s : State) : Result :=
  if s.modState ≠ 5 || !(s.vstate v ∈ [0, 1, 4]) then .next s
  else
    let s1 := if s.vstate v = 1 then (s.unload v).setVstate v 0 else if s.vstate v = 0 then s.unload v else s
    if !t.hallmarked && s.rfld .assayPolicy 0 0 = 1 then .next ((s1.reportLoad v .unsigned).assayRefuse 0 0)
    else
      let m := movedTable t
      match ((versionFault m).or (s1.placementFault v m)).or (layoutFault m) with
      | some x => .next (s1.reportLoad v x)
      | none =>
        if t.hallmarked && !sigOk then .next ((s1.reportLoad v .signature).assayRefuse 1 0)
        else
          let s2 := if t.hallmarked then s1.assay 1 0 0 else s1
          .next (s2.modVat v (fun w =>
            { w with ingot := some m, landed := [], stackWrites := [], regWrites := [], tableWrites := [], placed := false,
                     loadReport := none }))

/-! ## Segments (R356, R358) -/

/-- A counter assignment that the loader may make: the store works and no other id has the index (R171). -/
def State.counterFree (s : State) (v : VatId) (i : Vid) (w : Word64) : Bool :=
  let h : Half := if bitAt w 1 then .south else .north
  !bitAt w 0
    || (!s.pow.storesRetired.contains (h, storeCol (fld w 15 2))
      && !s.regs.any (fun p => match p.1 with
          | .vat u (.syncMap j) => (u ≠ v || j ≠ i) && bitAt p.2 0 && decide (fld p.2 15 1 = fld w 15 1)
          | _ => false))
/-- The status with which a loader-class write completes: ADDRESS outside the map, past the end of a range, or narrow or unaligned in a tile
or buffer (R57); PROTECT for a gate word that is no value of SPM_GROUPS (R67, R85). Control words are written whole. -/
def Core.loadStatus (k : Core) (a : Nat) (bs : List Byte) : Status :=
  match k.reach a bs.length with
  | none => .address
  | some .ctrl =>
    if a % 8 ≠ 0 || bs.length % 8 ≠ 0 then .address
    else if a ≤ 0x3F0010 && 0x3F0018 ≤ a + bs.length && !([1, 2, 4, 8].contains (leAt bs (0x3F0010 - a) 1 % 16)) then .protect
    else .ok
  | some _ => .ok
/-- Bytes written by loader-class DMA: each control word that they cover, or memory, weight areas included (R26, R67, R83, R85). -/
def Core.loadBytes (k : Core) (a : Nat) (bs : List Byte) : Core :=
  if 0x3F0000 ≤ a then
    (upTo (bs.length / 8)).foldl (fun q i =>
      let off := a + 8 * i - 0x3F0000
      let w := leAt bs (8 * i) 8
      if off = 0x10 then q.setGate (w % 16) else q.putCtrl off (w64 w)) k
  else k.writeLocal a bs
/-- A core is one of the placement's. -/
def inPlacement (g : IngotTable) (r : Region) : Bool := (placedRegions g).contains r
/-- The loader reaches a region: it is one of the placement's, the vat holds it and it is on (R25, R258). -/
def State.loaderReach (s : State) (v : VatId) (g : IngotTable) (r : Region) : Bool := inPlacement g r && s.holds v r && s.regionOn r
/-- A register that the load under way has written, noted (R312). -/
def State.noteReg (s : State) (v : VatId) (r : Reg) : State := s.modVat v (fun w => { w with regWrites := w.regWrites ++ [r] })
/-- The same of a router's shadows. -/
def State.noteTable (s : State) (v : VatId) (r : RouterId) : State := s.modVat v (fun w => { w with tableWrites := w.tableWrites ++ [r] })
/-- A counter word that the loader has written is what a vat reset gives back, and the mirrors of the id are rebuilt from it (R171, R173). -/
def State.loadedCtr (s : State) (v : VatId) (i : Vid) (w : Fin 2) : State :=
  (s.noteLoaded v i w).mapCores v (fun k => { k with mirrors := kdel k.mirrors i })

/-- The addresses of a press slice's granules: those of its site's window from VAT_PRESS_BASE on whose channels work; the slices of a site's
presses follow one another by press number (R241, R255; log entry 98). -/
def State.sliceGranules (s : State) (v : VatId) (n : Fin 96) (count : Nat) : List Nat :=
  let base := 0x100000000000 + (pressSite n).val * 0x1000000000 + s.vfld v .vatPressBase 35 0
  let before := (((s.pressesOf v).filter (fun m => pressSite m = pressSite n && decide (m.val < n.val))).map
    (fun m => ceilDiv (s.press m).slice 4096)).sum
  ((((upTo (32 * (before + count))).map (fun i => base + 4096 * i)).filter (fun a => !s.chanRetired a && stackRange a 4096)).drop
    before).take count
/-- A press's slice written, with its pinned tail in the press's SRAM (R241, R245). -/
def State.loadSlice (s : State) (v : VatId) (n : Fin 96) (bs : List Byte) (pinned : Nat) : State :=
  let gs := s.sliceGranules v n (ceilDiv bs.length 4096)
  let s1 := ((upTo gs.length).zip gs).foldl (fun u p => u.stackWrite p.2 ((bs.drop (4096 * p.1)).take 4096)) s
  ({ s1 with presses := kset s1.presses n { slice := bs.length, sram := bs.drop (bs.length - pinned) } }).modVat v (fun w =>
    { w with copied := if w.copied.contains n then w.copied else w.copied ++ [n],
             stackWrites := w.stackWrites ++ gs.map (fun a => (a, 4096)) })

/-- The bytes of an ingot that go on down a tree: the module at its root sends them as LOAD packets, each on the link of its segment
(R311). -/
def State.sendTree (s : State) (v : VatId) (off : Nat) (bs : List Byte) : State :=
  (upTo (ceilDiv bs.length 4096)).foldl (fun u i =>
    let d := (bs.drop (4096 * i)).take 4096
    (u.treeLinks (off + 4096 * i)).foldl (fun w l => w.offer (.link l) true (seatOf v) (.packet
      { ty := 7, last := true, srcDev := w.deviceId, dstDev := w.peerDev l, srcVat := v, dstVat := v, length := BitVec.ofNat 16 d.length,
        addr := BitVec.ofNat 64 (off + 4096 * i), data := d })) u) s
/-- The module has a link on which LOAD packets come in: it is no root (R311). -/
def State.hasTreeIn (s : State) : Bool := (allFin 36).any (fun l => s.rfld (.linkCtrl l) 12 11 = 1 && s.linkUp l)

/-- One thing that the rim load engine writes, or what the loader reports where it refuses it. -/
def State.loadItem (s : State) (v : VatId) (g : IngotTable) (seg n : Nat) : SegItem → State × Option LoadRefusal
  | .mem c a bs =>
    if !s.loaderReach v g (regionOf c) then (s, some (.item seg n))
    else if (s.core c).loadStatus a bs ≠ .ok then (s, some (.access c a ((s.core c).loadStatus a bs)))
    else (s.modCore c (fun k => k.loadBytes a bs), none)
  | .imem c i w =>
    if s.loaderReach v g (regionOf c) then (s.modCore c (fun k => { k with imem := kset k.imem i w }), none) else (s, some (.item seg n))
  | .wb c b =>
    if s.loaderReach v g (regionOf c) && decide (b ≤ 3072) then
      (s.modCore c (fun k =>
        let x := { k with wb := b }
        if s.vstate v = 0 then x.zeroed (512 * b) 0x180000 else x), none)
    else (s, some (.item seg n))
  | .route r i w =>
    if inPlacement g (regionAt r) then
      ((s.modRouter r (fun k => { k with routeShadow := kset k.routeShadow i w })).noteTable v r, none) else (s, some (.item seg n))
  | .slot r o e w =>
    if inPlacement g (regionAt r) then
      ((s.modRouter r (fun k => { k with slotShadow := kset k.slotShadow (o, e) w })).noteTable v r, none) else (s, some (.item seg n))
  | .reg r w =>
    match r with
    | .syncMap i => if s.counterFree v i w then ((s.writeCtr v r w allLanes).noteReg v (.vat v r), none) else (s, some (.item seg n))
    | .ctr i 1 =>
      if s.rectGood v i w then (((s.writeCtr v r w allLanes).loadedCtr v i 1).noteReg v (.vat v r), none) else (s, some (.item seg n))
    | .ctr i 0 =>
      if fld w 49 34 = 0 then (s, some (.item seg n)) else (((s.writeCtr v r w allLanes).loadedCtr v i 0).noteReg v (.vat v r), none)
    | _ =>
      let u := s.writeKv v r w allLanes
      if u.vfld v .kvConf 27 27 = 1 ∧ s.vfld v .kvConf 27 27 = 0 then (s, some (.item seg n)) else (u.noteReg v (.vat v r), none)
  | .duty r d q =>
    if inPlacement g r then
      (((((s.putR (.pwrRegion r) 13 8 d.toNat).putR (.pwrRegion r) 3 0 q.toNat).deriveFwMax r).refreshThrottled r).noteReg v (.pwrRegion r),
        none)
    else (s, some (.item seg n))
  | .lead r ns => ({ s with shadow := kset s.shadow (.tickLead r) (w64 ns.toNat) }.noteReg v (.tickLead r), none)
  | .stack a bs =>
    if stackRange a bs.length then
      ((s.stackWrite a bs).modVat v (fun w => { w with stackWrites := w.stackWrites ++ [(a, bs.length)] }), none)
    else (s, some (.item seg n))
  | .press p bs pinned =>
    if s.pressOf v p && g.pressCopy && decide (pinned ≤ 50331648) && decide (pinned ≤ bs.length)
        && decide ((s.sliceGranules v p (ceilDiv bs.length 4096)).length = ceilDiv bs.length 4096) then
      (s.loadSlice v p bs pinned, none)
    else (s, some (.item seg n))
  | .raw off bs =>
    if s.hasTreeIn then (if memBytes s.tree off bs.length = bs then (s, none) else (s, some (.item seg n)))
    else (s.sendTree v off bs, none)
/-- A segment's items in order, each where the shift places it (R188), up to the first that is refused. -/
def State.loadItems (s : State) (v : VatId) (g : IngotTable) (seg n : Nat) : List SegItem → State × Option LoadRefusal
  | [] => (s, none)
  | x :: xs =>
    match s.loadItem v g seg n (movedItem g x) with
    | (u, none) => u.loadItems v g seg (n + 1) xs
    | r => r

/-- A register that a refused load had written, zeroed; a staged one keeps its committed value and loses its shadow (R312). -/
def State.zeroReg (s : State) (r : Reg) : State :=
  match r with
  | .tickLead _ => { s with shadow := kdel s.shadow r }
  | .pwrRegion k => (((s.putR r 13 8 0).putR r 3 0 0).deriveFwMax k).refreshThrottled k
  | .vat v (.syncMap i) => (s.setReg r 0).claimEntry v i (s.syncMap v i)
  | _ => { s with regs := kdel s.regs r }
/-- What a refused ingot has written is zeroed: cream, scratchpad, instruction stores and weight boundaries of its cores, its stack areas
and press slices, its registers and the shadows of its tables (R312). -/
def State.zeroLoaded (s : State) (v : VatId) (g : IngotTable) : State :=
  let s1 := (placedRegions g).foldl (fun u r => (u.zeroRegion r).mapRegion r (fun k => { k with imem := [], wb := 0 })) s
  let s2 := (s.vat v).stackWrites.foldl (fun u p => u.stackWrite p.1 (List.replicate p.2 0)) s1
  let s3 := (s.vat v).regWrites.foldl State.zeroReg s2
  let s4 := (s.vat v).tableWrites.foldl (fun u r => u.modRouter r (fun k => { k with routeShadow := [], slotShadow := [] })) s3
  (s.vat v).copied.foldl (fun u n => { u with presses := kdel u.presses n }) (s4.modVat v (fun w => { w with copied := [] }))

/-- An item writes only the vat's press copy, or passes bytes on. -/
def pressOnly : SegItem → Bool
  | .press _ _ _ => true
  | .raw _ _ => true
  | _ => false
/-- A vat's press copy may be rewritten by itself: its press set has changed, or channels were lost, and it is paused with no pass in
progress (R241, R255). -/
def State.mayRecopy (s : State) (v : VatId) : Bool :=
  s.vfld v .vatPrefill 18 18 = 1 && (s.vat v).pass.isNone && s.vstate v ∈ [1, 2, 3, 4]

/-- INGOT_SEGMENT: a segment lands and is written. A hallmarked ingot whose digest fails is refused whole and zeroed; an item that the
loader refuses ends the load. Either leaves the vat without an ingot (R312, R357, R358). Of a placed ingot only the press copy is written
again (R241, R255). -/
def execIngotSegment (v : VatId) (idx : Nat) (items : List SegItem) (digestOk : Bool) (s : State) : Result :=
  match (s.vat v).ingot with
  | none => .next s
  | some g =>
    if s.modState ≠ 5 || g.segments ≤ idx then .next s
    else if (s.vat v).placed then
      if s.mayRecopy v && items.all pressOnly && (digestOk || !g.hallmarked) then .next (s.loadItems v g idx 0 items).1 else .next s
    else if !(s.vstate v ∈ [0, 4]) then .next s
    else
      match s.loadItems v g idx 0 items with
      | (u, some x) => .next ((u.unload v).reportLoad v x)
      | (u, none) =>
        if g.hallmarked && !digestOk then .next ((((u.zeroLoaded v g).unload v).reportLoad v (.digest idx)).assayRefuse 0 idx)
        else .next (u.modVat v (fun w => { w with landed := if w.landed.contains idx then w.landed else w.landed ++ [idx] }))

/-- A field lowered to a bound. -/
def State.lower (s : State) (r : Reg) (hi lo bound : Nat) : State := s.putR r hi lo (min (s.rfld r hi lo) bound)

/-- What the loader finds when every segment is written: a span it cannot keep (R70), a member whose weight boundary lies above its stage's
LINE0 (R117), a router whose tables break R147 or R152 (R193). -/
def State.finalFault (s : State) (g : IngotTable) : Option LoadRefusal :=
  let high := g.stages.findSome? (fun x => match x.kvStage with
    | some w => (x.cores.take (fld g.kvConf 7 0 * fld w 39 28)).find? (fun c => decide (fld w 11 0 < (s.core c).wb))
    | none => none)
  let bad := (s.routers.map Prod.fst).find? (fun r => inPlacement g (regionAt r) && s.shadowBad r)
  ((s.spanFault g).or (high.map .boundary)).or (bad.map .tables)
/-- The lead map that an ingot brings is applied by firmware at the next tick, whatever else the tick group's shadows hold (R48). -/
def State.applyLeads (s : State) (v : VatId) : State :=
  let leads := ((s.vat v).regWrites.filter (fun r => match r with
    | .tickLead _ => true
    | _ => false)).map (fun r => (r, s.shadowOf r))
  let old := (kfind s.staged none).map (fun p => p.vals)
  if leads.isEmpty then s
  else { s with staged := kset s.staged none { vals := old.getD [] ++ leads } }.putR .tickCommit 1 1 1

/-- VAT_LOADED: every segment is written and has passed: the loader's last checks refuse the ingot, or the beat, the group size and the
pail budget are set from it, its lead map is applied, its tables are committed (R163), and the vat becomes LOADED; a QUIESCED vat stays so
until RESUME (R264, R358). -/
def execVatLoaded (v : VatId) (s : State) : Result :=
  match (s.vat v).ingot with
  | none => .next s
  | some g =>
    if (s.vat v).placed || !(upTo g.segments).all (fun i => (s.vat v).landed.contains i) || !(s.vstate v ∈ [0, 4]) then .next s
    else
      match s.finalFault g with
      | some x => .next ((s.unload v).reportLoad v x)
      | none =>
        let s1 := (if g.hallmarked then s.assay 2 0 0 else s).copySpans g
        let s2 := { s1 with shadow := kset s1.shadow (.vat v .vatBeat) (w64 (g.kMinus1.toNat + 16 * g.slipLimit.toNat)) }
        let s3 := ((s2.lower (.vat v .vatPrefill) 13 0 g.maxGroup).lower (.vat v .vatLadle) 34 16 g.pailPos).applyLeads v
        let s4 := if (s.vat v).tableWrites.isEmpty then s3 else s3.commitTables v
        let s5 := s4.modVat v (fun w => { w with placed := true, stackWrites := [], regWrites := [], tableWrites := [] })
        .next (if s.vstate v = 0 then s5.setVstate v 1 else s5)

end Sys2Proof.Machine
end

