-- ==== Sys2Proof/Machine/Links.lean ====
section
/-! DEFINITION. Device links: training, lanes, framing, replay, retirement, forwarding and remote access (R285 to R299, R308, R311). -/

namespace Sys2Proof.Machine

/-! ## Training (R293, R314, R386) -/

/-- Two roles pair. -/
def rolesPair (a b : Nat) : Bool := (a = 0 && b = 0) || (a = 1 && b = 1) || (a = 2 && b = 3) || (a = 3 && b = 2)
/-- A link without traffic, with what stays of it: its lanes, the packets already received, and the number expected next. -/
def Link.fresh (k : Link) : Link :=
  { lanesDead := k.lanesDead, lanesShort := k.lanesShort, sparesIn := k.sparesIn, rx := k.rx, rxFrames := k.rxFrames, lseqIn := k.lseqIn }
/-- A link goes down. -/
def State.linkDown (s : State) (l : LinkId) : State := (s.putR (.linkStatus l) 0 0 0).modLink l Link.fresh
/-- LINK_CTRL_l.EN. -/
def State.linkEn (s : State) (l : LinkId) : Bool := s.rfld (.linkCtrl l) 2 2 = 1

/-- LINK_TRAINING: the ends exchange device id, link number and role; the link comes up where both ids are valid and the roles pair, and
else stays down with MISMATCH. Open presence contacks keep or bring it down (R386, R398). A link that trains numbers its packets from 0 on
(log entry 32). -/
def execLinkTraining (l : LinkId) (presence peerValid : Bool) (peerDev : BitVec 16) (peerLink : BitVec 6) (peerRole : BitVec 2)
    (s : State) : Result :=
  if !s.barUp || !s.linkEn l || s.linkRetiredBit l then .next s
  else if !presence then .next (if s.linkUp l then s.linkDown l else s)
  else if s.linkUp l then .next s
  else if s.rfld .linkId 16 16 = 1 && peerValid && rolesPair (s.role l) peerRole.toNat then
    .next ((((((s.linkDown l).modLink l (fun k => { k with lseqIn := 0 })).putR (.linkStatus l) 0 0 1).putR (.linkStatus l) 4 4 0).putR
      (.linkStatus l) 20 5 peerDev.toNat).putR (.linkStatus l) 26 21 peerLink.toNat)
  else .next (s.putR (.linkStatus l) 4 4 1)

/-! ## Lanes (R285) -/

/-- The spare lanes that are trained and idle. -/
def Link.idleSpares (k : Link) : List (Fin 18) :=
  ([16, 17] : List (Fin 18)).filter (fun x => !k.lanesDead.contains x && !k.sparesIn.contains x)
/-- The lane a cause names. -/
def laneOf : LaneCause → Fin 18
  | .lockLost x | .codewords x _ => x
/-- A cause retires its lane: lock is lost, or more than 16 uncorrectable codewords came within 1 ms. -/
def laneRetires : LaneCause → Bool
  | .lockLost _ => true
  | .codewords _ n => 16 < n
/-- LANE_RETIRED: a lane that lost lock, or reported too many uncorrectable codewords, is retired; the link stripes over the lanes that
remain. -/
def execLaneRetired (l : LinkId) (cause : LaneCause) (s : State) : Result :=
  let k := s.link l
  let lane := laneOf cause
  if !s.linkUp l || k.lanesDead.contains lane || !laneRetires cause then .next s
  else
    let active := lane.val < 16 || k.sparesIn.contains lane
    let k1 := { k with lanesDead := k.lanesDead ++ [lane], sparesIn := k.sparesIn.filter (fun x => x ≠ lane),
                       lanesShort := k.lanesShort + active.toNat }
    .next (((s.modLink l (fun _ => k1)).putR (.linkStatus l) 3 2 k1.sparesIn.length).logEvent 0x0030 0 2 l)
/-- SPARE_LANE_IN: a spare lane joins. -/
def execSpareLaneIn (l : LinkId) (s : State) : Result :=
  let k := s.link l
  match k.idleSpares with
  | [] => .next s
  | x :: _ =>
    if !s.linkUp l || k.lanesShort = 0 then .next s
    else
      let k1 := { k with sparesIn := k.sparesIn ++ [x], lanesShort := k.lanesShort - 1 }
      .next ((s.modLink l (fun _ => k1)).putR (.linkStatus l) 3 2 k1.sparesIn.length)

/-! ## Remote access: its checks (R296, R298) -/

/-- A valid LINK_PEER entry of a vat grants a device and vat a kind of access: bit 22 READ, bit 23 WRITE. -/
def State.peerGrants (s : State) (v : VatId) (dev vat bit : Nat) : Bool :=
  (allFin 16).any (fun e =>
    let w := s.vreg v (.linkPeer e)
    bitAt w 24 && bitAt w bit && fld w 15 0 = dev && fld w 21 16 = vat)
/-- The core and local address of a core-form word, and the stack address of a stack-form word (R296). -/
def core3 (w : Word64) : Option CoreId := coreOf (fld w 35 27) (fld w 44 36)
def addr3 (w : Word64) : Nat := 8 * fld w 63 45
def stack3 (w : Word64) : Nat := 64 * fld w 61 27

/-- R298's checks of a WRITE or READ of n bytes, in order: the status of the first that fails. -/
def State.remoteFault (s : State) (p : Packet) (write : Bool) (n : Nat) : Option Status :=
  let v := p.dstVat
  let w := p.addr
  if !(s.vstate v ∈ [2, 3, 4]) then some .protect
  else if !s.peerGrants v p.srcDev.toNat p.srcVat (if write then 23 else 22) then some .protect
  else if bitAt w 20 then
    let base := s.vfld v .linkStackwin 20 0 * 2 ^ 20
    let size := s.vfld v .linkStackwin 41 21 * 2 ^ 20
    if base ≤ stack3 w ∧ stack3 w + n ≤ base + size ∧ stackRange (stack3 w) n then none else some .protect
  else
    match core3 w with
    | none => some .address
    | some c =>
      if !s.holds v (regionOf c) then some .address
      else
        match (s.core c).spaceOf (addr3 w) n with
        | some .cream => if write && decide (addr3 w < 512 * (s.core c).wb) then some .protect else none
        | some .spm => none
        | _ => some .address
/-- The descriptor that an answer belongs to: core, place and descriptor, unless its window is over (R299). -/
def State.asker (s : State) (p : Packet) : Option (CoreId × Nat × Desc) :=
  s.cores.findSome? (fun e =>
    if s.vatOf e.1 = some p.dstVat then
      ((upTo e.2.dmaActive.length).zip e.2.dmaActive).findSome? (fun d =>
        if d.2.tag.isSome && d.2.result.isNone && d.2.ptag = p.tag.toNat && !s.timedOut e.1 d.2 then some (e.1, d.1, d.2)
        else none)
    else none)
/-- The core, or the stack address, that a packet for this module goes to, none where the rim deals with it: a request that R298 refuses,
or an answer that nobody waits for. -/
def State.goesTo (s : State) (p : Packet) : Option (CoreId ⊕ Nat) :=
  if p.ty = 1 || p.ty = 2 then
    let n := if p.ty = 1 then p.data.length else leAt p.data 0 4
    if n = 0 || (s.remoteFault p (decide (p.ty = 1)) n).isSome then none
    else if bitAt p.addr 20 then some (.inr (stack3 p.addr))
    else (core3 p.addr).map .inl
  else
    match s.asker p with
    | some (c, _, d) => if p.ty = 3 && kindOf d.dst = 2 then some (.inr (addr2 d.dst + d.moved)) else some (.inl c)
    | none => none

/-! ## Receiving (R286 to R292) -/

/-- Frames of the receiver's buffer are free again; their credits go back with the next control cell (R292). -/
def State.freeFrames (s : State) (l : LinkId) (p : Packet) : State :=
  s.modLink l (fun k => { k with rxFrames := k.rxFrames - packetFrames p, owed := k.owed + packetFrames p })
/-- The receiver asks for the packet it expects next, at once (R286, R290). -/
def State.askAgain (s : State) (l : LinkId) : State :=
  (s.modLink l (fun k => { k with opened := none, body := [], askReplay := true, lastSeen := none, rxFails := k.rxFails + 1 })).sendControl
    l (some (s.link l).lseqIn)
/-- A damaged cell or packet is dropped, and so is every packet after it until the replay; a framing error is counted (R288, R290). -/
def State.dropCell (s : State) (l : LinkId) (malformed : Bool) : State :=
  if (s.link l).askReplay then s.modLink l (fun k => { k with opened := none, body := [] })
  else (if malformed then s.bumpR (.linkStat l) 31 16 1 else s).askAgain l

/-- A packet accepted from a link: of an unknown type it is refused, and so are MIRROR and TWIN but from the twin on a twin link, and
LOAD but on a link whose TREE is in (R289). What MIRROR and TWIN packets carry comes as the commands of R301 and R304. One for this
module goes to the core or the stack that it is for, over the rim (R297); its frames stay taken until its command takes it. -/
def State.accept (s0 : State) (l : LinkId) (p : Packet) : State :=
  let s := s0.modLink l (fun k => { k with rxFails := 0, rxFrames := k.rxFrames + packetFrames p })
  if p.ty = 0 || 8 ≤ p.ty.toNat then (s.countRefused l).freeFrames l p
  else if twinType p.ty then
    (if s.role l = 1 && p.srcDev.toNat = s.rfld .twinCtrl 15 0 then s else s.countRefused l).freeFrames l p
  else if p.ty = 7 && s.rfld (.linkCtrl l) 12 11 ≠ 1 then (s.countRefused l).freeFrames l p
  else
    match if p.dstDev = s.deviceId && p.ty ≠ 7 then s.goesTo p else none with
    | some (.inl c) => s.packetToCore (halfOf (regionOf c)) l p
    | some (.inr a) => s.packetToStack a l p
    | none => s.modLink l (fun k => { k with rx := k.rx ++ [p] })

/-- The receiver has room for a packet (R292). -/
def Link.roomFor (k : Link) (p : Packet) : Bool := k.rxFrames + packetFrames p ≤ 2048
/-- A whole packet: the one expected is accepted; one already taken is dropped; one further on asks for a replay, and so does one without
room, which no sender with credits sends. A rerouted packet goes by the numbers of the dead link; a lower one is a duplicate, whose frames
are free again unless it comes in a replay (R290, R291, R292). -/
def State.arrivePacket (s0 : State) (l : LinkId) (p : Packet) : State :=
  let s := s0.modLink l (fun k => { k with opened := none, body := [] })
  if !(s.link l).roomFor p then s.askAgain l
  else if p.reroute then
    match toFin? 36 p.origLink.toNat with
    | none => (s.countRefused l).modLink l (fun k => { k with owed := k.owed + packetFrames p })
    | some o =>
      let s1 := s.modLink l (fun k => { k with rerouted := some o })
      if p.lseq = (s1.link o).lseqIn then (s1.modLink o (fun k => { k with lseqIn := k.lseqIn + 1 })).accept l p
      else if 2 ^ 15 ≤ (p.lseq - (s1.link o).lseqIn).toNat then
        (s1.bumpR (.linkStat l) 47 32 1).modLink l (fun k => { k with owed := k.owed + (if k.rxFails = 0 then packetFrames p else 0) })
      else s1.askAgain l
  else if p.lseq = (s.link l).lseqIn then
    (s.modLink l (fun k => { k with lseqIn := k.lseqIn + 1, rerouted := none })).accept l p
  else if 2 ^ 15 ≤ (p.lseq - (s.link l).lseqIn).toNat then s
  else s.askAgain l

/-- The head cell with which a replay begins: the packet expected next, or, while packets of a dead link arrive here, one of theirs that is
not beyond the one expected of it (log entry 32). -/
def State.beginsReplay (s : State) (l : LinkId) (p : Packet) : Bool :=
  if p.reroute then
    match toFin? 36 p.origLink.toNat with
    | some o => p.lseq = (s.link o).lseqIn || decide (2 ^ 15 ≤ (p.lseq - (s.link o).lseqIn).toNat)
    | none => false
  else (s.link l).rerouted.isNone && p.lseq = (s.link l).lseqIn
/-- A head cell shows that the sender has begun again: it does not come after the last one seen. -/
def wentBack (last : Option (Bool × BitVec 16)) (p : Packet) : Bool :=
  match last with
  | some (r, n) => if r = p.reroute then p.lseq = n || decide (2 ^ 15 ≤ (p.lseq - n).toNat) else p.reroute
  | none => false
/-- A packet is opened by its head cell. -/
def State.openPacket (s : State) (l : LinkId) (p : Packet) : State :=
  s.modLink l (fun k => { k with opened := some { p with data := [] }, body := [], askReplay := false })
/-- A head cell while a replay is awaited: the replay begins with it, or has lost its beginning and is asked for again, or it is passed
over. -/
def State.awaitReplay (s : State) (l : LinkId) (p : Packet) : State :=
  if s.beginsReplay l p then s.openPacket l p
  else if wentBack (s.link l).lastSeen p then s.askAgain l
  else s.modLink l (fun k => { k with lastSeen := some (p.reroute, p.lseq) })

/-- CELL_RECEIVE: CRC, then framing (R286, R288). -/
def execCellReceive (l : LinkId) (cell : List Byte) (s : State) : Result :=
  if !s.linkUp l || s.linkRetiredBit l then .next s
  else
    let k := s.link l
    match cellOf cell with
    | .idle => .next s
    | .control => .next s
    | .damaged => .next (s.dropCell l false)
    | .head fin p =>
      let bad := fin || p.length.toNat = 0 || 4096 < p.length.toNat || k.opened.isSome
      if k.askReplay then .next (if bad then s else s.awaitReplay l p)
      else if bad then .next (s.dropCell l true)
      else .next (s.openPacket l p)
    | .payload fin bytes =>
      if k.askReplay then .next s
      else
        match k.opened with
        | none => .next (s.dropCell l true)
        | some p =>
          let body := k.body ++ bytes
          let need := ceilDiv p.length.toNat 32
          if fin then
            if body.length = 32 * need then .next (s.arrivePacket l { p with data := body.take p.length.toNat })
            else .next (s.dropCell l true)
          else if 32 * need ≤ body.length then .next (s.dropCell l true)
          else .next (s.modLink l (fun x => { x with body := body }))

/-! ## Control cells and replay (R286, R290, R292, R308) -/

/-- The replay buffer after a cumulative acknowledgement of an LSEQ: rerouted packets that stand before the one acknowledged have
arrived with it. -/
def ackThrough (n : BitVec 16) (ps : List Packet) : List Packet :=
  match ps.findIdx? (fun p => !p.reroute && p.lseq = n) with
  | some i => ps.drop (i + 1)
  | none => ps
/-- A link after an acknowledgement; while a replay is asked for, its buffer waits for that. -/
def Link.acked (k : Link) (n : BitVec 16) : Link :=
  let r := ackThrough n k.replay
  if k.replayReq.isNone && decide (r.length < k.replay.length) then { k with replay := r, fails := 0 } else k
/-- A link after a replay request: everything before the packet asked for has arrived, and that packet has failed once more. -/
def Link.asked (k : Link) (n : BitVec 16) : Link :=
  let x := k.acked (n - 1)
  { x with replayReq := some n, fails := x.fails + 1 }

/-- CONTROL_CELL: acknowledgement, replay request, credits, and the tick-rate reference. -/
def execControlCell (l : LinkId) (info : ControlInfo) (s : State) : Result :=
  if !s.linkUp l || s.linkRetiredBit l then .next s
  else
    let lock := s.role l = 3 && s.rfld (.linkCtrl l) 13 13 = 1 && info.peerPeriod.toNat = s.period
    .next (s.modLink l (fun k =>
      let k1 := match info.ack with
        | some n => k.acked n
        | none => k
      let k2 := match info.replay with
        | some n => k1.asked n
        | none => k1
      { k2 with framesUsed := k2.framesUsed - info.credits, tickLocked := lock }))

/-- LINK_REPLAY: the sender sends again, in order, from the packet asked for; a packet that has failed four times retires the link
instead. -/
def execLinkReplay (l : LinkId) (s : State) : Result :=
  let k := s.link l
  if !s.linkUp l || k.replayReq.isNone || 4 ≤ k.fails then .next s
  else
    .next (((s.modLink l (fun x => { x with sent := x.sent ++ x.replay.map .packet, replayReq := none })).countCells l
      (k.replay.map packetFrames).sum).bumpR (.linkStat l) 15 0 1)

/-! ## Retirement (R285, R291) -/

/-- The packets that wait for a link, participant by participant. -/
def State.queuedPackets (s : State) (l : LinkId) : List Packet :=
  (allFin 65).flatMap (fun w => (kget [] (s.sched (.link l) true).waiting w).filterMap (fun x =>
    match x with
    | .packet p => some p
    | _ => none))
/-- Queued packets numbered on after the last one sent. -/
def numbered (n : BitVec 16) : List Packet → List Packet
  | [] => []
  | p :: ps => { p with lseq := n } :: numbered (n + 1) ps
/-- Another working link to the same peer: of the same role first, else a general one. -/
def State.detour (s : State) (l : LinkId) : Option LinkId :=
  let ok (x : LinkId) : Bool := x ≠ l && s.linkUp x && !s.linkRetiredBit x && s.peerDev x = s.peerDev l
  match (allFin 36).find? (fun x => ok x && s.role x = s.role l) with
  | some x => some x
  | none => (allFin 36).find? (fun x => ok x && s.role x = 0)
/-- The link has failed for good: a packet failed four times, at either end, or a lane was lost with no spare left (R285, R291). -/
def Link.failed (k : Link) : Bool := 4 ≤ k.fails || 4 ≤ k.rxFails || k.idleSpares.length < k.lanesShort
/-- The dead link leaves every route mask. -/
def State.unroute (s : State) (l : LinkId) : State :=
  (s.regs.map Prod.fst).foldl (fun u r =>
    match r with
    | .linkRoute _ 1 => u.putR r l l 0
    | _ => u) s

/-- LINK_RETIRED: the link is dead in both directions; its packets move to another link to the peer, or are discarded; the warden
reports it. -/
def execLinkRetired (l : LinkId) (s : State) : Result :=
  let k := s.link l
  if !s.linkUp l || s.linkRetiredBit l || !k.failed then .next s
  else
    let mark (p : Packet) : Packet :=
      if p.reroute then p
      else { p with reroute := true, origLink := BitVec.ofNat 8 (s.rfld (.linkStatus l) 26 21) }
    let moved := k.replay ++ k.ahead ++ numbered k.lseqOut (s.queuedPackets l)
    let s1 := ((s.modLink l (fun x => { x.fresh with lseqIn := k.lseqIn, lseqOut := k.lseqOut })).putR (.linkStatus l) 1 0 2).unroute l
    let s2 := { s1 with scheds := kdel s1.scheds (.link l, true) }
    let s3 := match s.detour l with
      | some x => s2.modLink x (fun y => { y with ahead := y.ahead ++ moved.map mark })
      | none => s2
    .next (s3.logEvent 0x0031 0 2 l)

/-! ## Received packets (R294, R297 to R299) -/

/-- The packet at the front of what a link has received leaves it, and its frames are free. -/
def State.dropRx (s : State) (l : LinkId) (p : Packet) : State :=
  (s.modLink l (fun k => { k with rx := k.rx.drop 1 })).freeFrames l p
/-- The packet at the front of what a link has received, when it is for this module and of a type; and the state without it. -/
def State.takeRx (s : State) (l : LinkId) (ty : BitVec 8) : Option (Packet × State) :=
  match (s.link l).rx with
  | p :: _ => if p.ty = ty && (p.dstDev = s.deviceId || ty = 7) then some (p, s.dropRx l p) else none
  | [] => none

/-- PACKET_FORWARD: a packet for another device goes on by the route table, among the forwarded packets of its link; a WRITE or READ
without a route is refused, and its source is told. -/
def execPacketForward (l : LinkId) (s : State) : Result :=
  match (s.link l).rx with
  | [] => .next s
  | p :: _ =>
    if p.dstDev = s.deviceId || p.ty = 7 then .next s
    else
      let s1 := s.dropRx l p
      match s1.routeOf p with
      | some x => .next (s1.offer (.link x) true 64 (.packet { p with reroute := false, origLink := 0 }))
      | none =>
        if p.ty = 1 || p.ty = 2 then
          let a := answer p 4 .address ackBytes
          match s1.routeOf a with
          | some x => .next ((s1.countRefused l).offer (.link x) true 64 (.packet a))
          | none => .next (s1.countRefused l)
        else .next s1

/-- An ADD to a counter of a vat, made by the module for a remote write: applied before its ACK goes (R178, R297). Where the vat maps the id
to no counter the spec gives no outcome: no ADD is made and the ACK says OK (DESIGN CHOICE, log entry 95). -/
def State.addFor (s : State) (v : VatId) (i0 : Vid) (n : Nat) : State :=
  match s.syncMap v i0 with
  | none => s
  | some (h, ix) =>
    let i := s.sameEntry v i0
    if s.isBarrier v i then s.vatFault v (s.placeOf (s.storeRouter h (storeCol ix)))
    else
      let x := (s.vfld v (.ctr i 0) 31 0 + n) % 2 ^ 32
      (s.putV v (.ctr i 0) 31 0 x).notify h (storeCol ix) v i 0 x
/-- A remote write's bytes written. -/
def State.remoteStore (s : State) (w : Word64) (bs : List Byte) : State :=
  if bitAt w 20 then s.stackWrite (stack3 w) bs
  else
    match core3 w with
    | some c => (s.mergeCounted c (addr3 w) bs.length).modCore c (fun k => k.writeLocal (addr3 w) bs)
    | none => s
/-- The core that a core-form access reaches has no power: the access waits (R25; log entry 91). -/
def State.targetOff (s : State) (w : Word64) : Bool :=
  !bitAt w 20 && (match core3 w with
    | some c => !s.regionOn (regionOf c)
    | none => false)
/-- The last write of a pail from the upstream module has come (R308). -/
def State.noteInbound (s : State) (p : Packet) : State :=
  let v := p.dstVat
  if p.last && s.chained v && p.srcDev.toNat = s.vfld v .linkChain 39 24 && p.srcVat.val = s.vfld v .linkChain 45 40 then
    s.modVat v (fun w => { w with inbound := true })
  else s

/-- WRITE: checked and written; the packet with LAST makes the ADD asked for and is answered with an ACK, and one that fails is
answered at once and counted (R297, R298). -/
def execLinkWrite (l : LinkId) (s : State) : Result :=
  match s.takeRx l 1 with
  | none => .next s
  | some (p, s1) =>
    match s1.remoteFault p true p.data.length with
    | some st => .next ((s1.countRefused l).postRouted (answer p 4 st ackBytes))
    | none =>
      if s.targetOff p.addr then .next s
      else
        let s2 := s1.remoteStore p.addr p.data
        if bitAt p.addr 20 && s1.fencedGranule (stack3 p.addr) p.data.length then .next (s2.postRouted (answer p 4 .eccfatal ackBytes))
        else if !p.last then .next s2
        else
          let s3 := if p.signal then s2.addFor p.dstVat ⟨p.sigVid.toNat, p.sigVid.isLt⟩ p.sigVal.toNat else s2
          .next ((s3.noteInbound p).postRouted (answer p 4 .ok ackBytes))

/-- A READ's source: its bytes up to a double-bit error, and whether all were delivered. -/
def State.remoteSource (s : State) (w : Word64) (n : Nat) : List Byte × Bool :=
  if bitAt w 20 then
    let m := if s.stackFails (stack3 w) n then firstBad n (fun i => s.stackFails (stack3 w + i) 1) else n
    (s.stackRead (stack3 w) m, decide (m = n))
  else
    match core3 w with
    | none => ([], false)
    | some c =>
      let k := s.core c
      let m := if k.eccDouble.isEmpty then n else firstBad n (fun i => k.doubleAt (addr3 w + i) 1)
      ((s.readLocal c (addr3 w) n).take m, decide (m = n))
/-- DATA packets for a READ: at most 4,096 B each; the last carries LAST and the status, and after an error no data of its own. The local
address of the requester that ADDR names does not come with a READ: it is a free value (log entry 35). Data leaves the core or the stack
that it lies in; what carries a status alone leaves the rim. -/
def State.postData (s : State) (p : Packet) (data : List Byte) (st : Status) : State :=
  let ps := pieces 4096 (ceilDiv data.length 4096) data
  let packet (u : State) (bs : List Byte) (fin : Bool) : Packet :=
    { answer p 3 (if fin then st else .ok) bs with last := fin, addr := Config.freeWord u.freeCtr }
  let next_ (u : State) : State := { u with freeCtr := u.freeCtr + 1 }
  match s.routeOf (answer p 3 st []) with
  | none => s
  | some l =>
    let s1 := (ps.zip (upTo ps.length)).foldl (fun u q =>
      let d := packet u q.1 (decide (st = .ok) && decide (q.2 + 1 = ps.length))
      if bitAt p.addr 20 then (next_ u).packetFromStack (stack3 p.addr + 4096 * q.2) l d
      else
        match core3 p.addr with
        | some c => (next_ u).packetFromCore (halfOf (regionOf c)) l d
        | none => next_ u) s
    if st = .ok then s1 else (next_ s1).post l (packet s1 ackBytes true)
/-- What a READ leaves at its source, of which m bytes were delivered: single-bit errors are counted; a double-bit error stops the vat that
holds the core, or is counted for the stack (R24, R66, R197, R254). -/
def State.sourceMet (s : State) (w : Word64) (n m : Nat) : State :=
  if bitAt w 20 then (if m = n then s else s.countStackFatal (stack3 w) n).countStackFixed (stack3 w) n
  else
    match core3 w with
    | some c =>
      let s1 := s.readCounted c (addr3 w) m
      if m = n then s1 else (s1.eccMet c).eccStopHolder c
    | none => s

/-- READ: checked, and answered with DATA (R297, R298). -/
def execLinkRead (l : LinkId) (s : State) : Result :=
  match s.takeRx l 2 with
  | none => .next s
  | some (p, s1) =>
    let n := leAt p.data 0 4
    match if n = 0 then some .address else s1.remoteFault p false n with
    | some st => .next ((s1.countRefused l).postData p [] st)
    | none =>
      if s.targetOff p.addr then .next s
      else
        let b := s1.remoteSource p.addr n
        .next ((s1.sourceMet p.addr n b.1.length).postData p b.1 (if b.2 then .ok else .eccfatal))

/-- The status that a code names (R333). -/
def statusOf (code : Nat) : Option Status :=
  [Status.ok, .illegal, .format, .counter, .empty, .oversize, .address, .protect, .eccfatal, .vatfault, .slip, .timeout, .length,
    .cancelled, .variant, .reset, .badentry, .nostream, .nospace, .headroom, .wrap, .tb2Invalid, .scaleNan].find?
    (fun x => statusCode x = code)
/-- A late answer is discarded and counted. -/
def State.countLate (s : State) (v : VatId) : State := s.bumpR (.vat v .linkTimeout) 63 32 1

/-- The bytes of an answer written at the requester. -/
def State.putAnswer (s : State) (c : CoreId) (d : Desc) (bs0 : List Byte) : State :=
  let bs := bs0.take (d.length - d.moved)
  if kindOf d.dst = 2 then s.stackWrite (addr2 d.dst + d.moved) bs
  else
    let a := addr0 d.dst + d.moved
    let ws := match (s.core c).reach a bs.length with
      | some .spm => bs
      | some .cream => bs
      | _ => bs.take (bs.length / 4 * 4)
    s.modCore c (fun k => k.writeLocal a ws)
/-- The requester's destination is held by a running sweep. -/
def State.answerHeld (s : State) (c : CoreId) (d : Desc) (n : Nat) : Bool :=
  kindOf d.dst = 0 && ((s.core c).busyAt (addr0 d.dst + d.moved) n || (s.core c).bufRead (addr0 d.dst + d.moved) n)

/-- DATA: written at the requester; the last packet completes the descriptor with its status (R297, R299). -/
def execLinkData (l : LinkId) (s : State) : Result :=
  match s.takeRx l 3 with
  | none => .next s
  | some (p, s1) =>
    match s1.asker p with
    | none => .next (s1.countLate p.dstVat)
    | some (c, i, d) =>
      if kindOf d.src ≠ 3 then .next (s1.countLate p.dstVat)
      else if s1.answerHeld c d p.data.length then .next s
      else
        let st := (statusOf p.status.toNat).getD .address
        let s2 := if st = .ok then s1.putAnswer c d p.data else s1
        let fenced := decide (kindOf d.dst = 2) && s1.fencedGranule (addr2 d.dst) d.length
        if p.last then .next (s2.finishDesc c i d (if st = .ok && fenced then .eccfatal else st))
        else .next (s2.modCore c (fun k =>
          { k with dmaActive := k.dmaActive.set i { d with moved := d.moved + p.data.length } }))

/-- ACK: completes the descriptor it answers with its status (R297, R299). -/
def execLinkAck (l : LinkId) (s : State) : Result :=
  match s.takeRx l 4 with
  | none => .next s
  | some (p, s1) =>
    match s1.asker p with
    | none => .next (s1.countLate p.dstVat)
    | some (c, i, d) =>
      if kindOf d.dst ≠ 3 then .next (s1.countLate p.dstVat)
      else .next (s1.finishDesc c i d ((statusOf p.status.toNat).getD .address))

/-! ## Trees (R311) -/

/-- LOAD: the packet's bytes are kept at their offset in the ingot, and it goes down the tree. -/
def execLoad (l : LinkId) (s : State) : Result :=
  match s.takeRx l 7 with
  | none => .next s
  | some (p, s1) =>
    let s2 := { s1 with tree := memPut s1.tree p.addr.toNat p.data }
    .next ((s1.treeLinks p.addr.toNat).foldl (fun u x =>
      u.offer (.link x) true 64 (.packet { p with reroute := false, origLink := 0 })) s2)

end Sys2Proof.Machine
end

