-- ==== Sys2Proof/Machine/HostWrite.lean ====
section
/-! DEFINITION. A BAR0 write to any register, with the behaviour that the register's own rule gives it (R6, R7, R316, R318, R319,
R400). -/

namespace Sys2Proof.Machine

/-- The bits that an access of a width reaches at an offset, none where it is unaligned or of another width (R316). -/
def accessLanes (off width : Nat) : Option Nat :=
  if width = 64 && off % 8 = 0 then some allLanes
  else if width = 32 && off % 4 = 0 then some (if off % 8 = 0 then maskOf 31 0 else maskOf 63 32)
  else none
/-- The value laid over the register's word. -/
def accessValue (off width : Nat) (value : Word64) : Word64 :=
  if width = 64 then value else if off % 8 = 0 then w64 (value.toNat % 2 ^ 32) else w64 (value.toNat % 2 ^ 32 * 2 ^ 32)

/-- A write of a staged field goes to its shadow (R53). -/
def State.shadowWrite (s : State) (r : Reg) (value : Word64) (lanes : Nat) : State :=
  if reaches lanes 0 then { s with shadow := kset s.shadow r (value &&& w64 (tkMask r)) } else s
/-- A write of 1 to GO, in bit 0 (R55, R167). -/
def goes (value : Word64) (lanes : Nat) : Bool := reaches lanes 0 && bitAt value 0
/-- A write that nothing restrains, to a register that has fields to write. -/
def State.openWrite (s : State) (r : Reg) (value : Word64) (lanes : Nat) : State :=
  if rwMask r = 0 ∧ w1cMask r = 0 then s else s.plainWrite r value lanes

/-- A pair may have its addresses, sizes, vector, port and coalescing changed (R320). -/
def State.queLocked (s : State) (n : QueueId) : Bool := s.queEn n || s.activeOf n ≠ 0
/-- A write of QUE_SQ_n or QUE_CQ_n that would change a locked field is ignored (R320, R400). -/
def State.writeQueWord (s : State) (n : QueueId) (r : Reg) (lock : Nat) (value : Word64) (lanes : Nat) : State :=
  let m := w64 lock
  if s.queLocked n && decide (s.merged r value lanes &&& m ≠ s.getReg r &&& m) then s else s.openWrite r value lanes

/-- A write of LINK_CTRL_l: TREE = 3 and a change of ROLE while EN = 1 are ignored; EN = 0 takes the link down, and a
write of EN = 1 retrains it (R293, R314). -/
def State.writeLinkCtrl (s : State) (l : LinkId) (value : Word64) (lanes : Nat) : State :=
  let old := s.getReg (.linkCtrl l)
  let new_ := s.merged (.linkCtrl l) value lanes
  if fld new_ 12 11 = 3 || (bitAt old 2 && decide (fld old 1 0 ≠ fld new_ 1 0)) then s
  else
    let s1 := s.setReg (.linkCtrl l) new_
    if s.linkUp l && (!bitAt new_ 2 || reaches lanes 2) then s1.linkDown l else s1

/-- The pair is dissolved: what waited for the standby is written, and the mirrors go (R300). -/
def State.unpair (s : State) : State :=
  let us := s.twin.unacked.map (fun u => { u with acked := true })
  let s1 := s.mapVats (fun w => { w with handing := false, alone := false, unsynced := false })
  let s2 := { s1 with twin := { s1.twin with unacked := us, staging := 0, recs := [], fills := [], ladles := [], lastFill := [], ends := [],
                                             taking := [] } }
  s2.drainAcked.setTwinState 0
/-- A write of TWIN_CTRL: PEER_DEV changes only while unpaired; PAIR = 0 unpairs; CMD 1 and 2 wait for the next tick (R300, R305,
R306, R314). -/
def State.writeTwinCtrl (s : State) (value : Word64) (lanes : Nat) : State :=
  let old := s.getReg .twinCtrl
  let new_ := s.merged .twinCtrl value lanes
  if s.twinState ≠ 0 && decide (fld old 15 0 ≠ fld new_ 15 0) then s
  else
    let s1 := s.setReg .twinCtrl new_
    let s2 := if bitAt old 16 && !bitAt new_ 16 && s.twinState ≠ 0 then s1.unpair else s1
    let c := if reaches lanes 17 then fld value 18 17 else 0
    if c = 1 ∨ c = 2 then { s2 with twin := { s2.twin with cmd := BitVec.ofNat 2 c, cmdDue := false } } else s2

/-- A write of a vat's register (R319). -/
def State.writeVatReg (s : State) (v : VatId) (r : VatReg) (value : Word64) (lanes : Nat) : Result :=
  let plain := s.openWrite (.vat v r) value lanes
  match r with
  | .vatCtrl => .next (s.shadowWrite (.vat v r) value lanes)
  | .vatBeat => .next (s.shadowWrite (.vat v r) value lanes)
  | .vatCommit => if goes value lanes then execVatCommitGo v s else .next s
  | .meshCommit => if goes value lanes then execMeshCommitGo v plain else .next plain
  | .vatRegions w => .next (s.writeRegions v w (s.merged (.vat v r) value lanes))
  | .vatLadle => .next (s.writeLadle v value lanes)
  | .vatPrefill => .next (s.writePrefill v value lanes)
  | .vatFault w => if w = 0 && reaches lanes 63 && bitAt value 63 then execVatFaultClear v s else .next s
  | .vatPressBase => .next (if plain.getReg (.vat v r) = s.getReg (.vat v r) then plain else plain.modVat v (fun x => { x with copied := [] }))
  | .linkTimeout => .next (if fld (s.merged (.vat v r) value lanes) 15 0 = 0 then s else plain)
  | .linkChain => .next (if s.vstate v = 1 ∨ s.vstate v = 4 then plain else s)
  | .kvConf => .next (s.writeKv v r value lanes)
  | .kvLimit => .next (s.writeKv v r value lanes)
  | .kvQkScale => .next (s.writeKv v r value lanes)
  | .kvListbase => .next (s.writeKv v r value lanes)
  | .kvSkimbase => .next (s.writeKv v r value lanes)
  | .kvRot => .next (s.writeKv v r value lanes)
  | .kvStage _ => .next (s.writeKv v r value lanes)
  | .kvRotFreq _ => .next (s.writeKv v r value lanes)
  | .syncMap _ => .next (s.writeCtr v r value lanes)
  | .ctr _ _ => .next (s.writeCtr v r value lanes)
  | .recipe n w => .next (if w = 0 && reaches lanes 0 then s.clearRecipe v n (fld value 3 0) else s)
  | _ => .next plain

/-- A write of a register by its name, where its block takes writes. -/
def State.writeReg (s : State) (r : Reg) (value : Word64) (lanes : Nat) : Result :=
  match r with
  | .glbPress n => .next (s.writePress n value lanes)
  | .stackShare k w => .next (s.writeShare (.stack k) w value lanes)
  | .pcieShare p w => .next (s.writeShare (.pcie (if p = 0 then .east else .west)) w value lanes)
  | .meshShare p w => .next (s.writeShare (.mesh p) w value lanes)
  | .linkShare l w => .next (s.writeShare (.link l) w value lanes)
  | .tickPeriod => .next (s.shadowWrite r value lanes)
  | .tickLead _ => .next (s.shadowWrite r value lanes)
  | .tickCommit => if goes value lanes then execTickCommitGo (s.openWrite r value lanes) else .next (s.openWrite r value lanes)
  | .twinCtrl => .next (s.writeTwinCtrl value lanes)
  | .linkCtrl l => .next (s.writeLinkCtrl l value lanes)
  | .que n => .next ((s.queWrite n value lanes).tellLadle (s.queVat n))
  | .queSq n w => .next (s.writeQueWord n r (if w = 0 then allLanes else 0x1FFFF) value lanes)
  | .queCq n w => .next (s.writeQueWord n r (if w = 0 then allLanes else maskOf 26 0 + maskOf 63 56) value lanes)
  | .ladleCust c _ =>
    .next ((s.openWrite r value lanes).tellLadle ⟨s.rfld (.ladleCust c 0) 37 32 % 64, Nat.mod_lt _ (by decide)⟩)
  | .ladleVariant n w =>
    if w = 0 then .next (s.writeVariant n value lanes) else .next s
  | .thermCtrl => .next (s.writeThermCtrl value lanes)
  | .pwrCtrl => if reaches lanes 0 then execPwrCtrlOff value s else .next s
  | .pwrRegion n => .next (((s.openWrite r value lanes).deriveFwMax n).refreshThrottled n)
  | .pwrGroup g => if reaches lanes 9 && bitAt value 9 then execRetireNow g s else .next s
  | .assayPolicy => .next (s.writePolicy value lanes)
  | .vat v x => s.writeVatReg v x value lanes
  | _ => .next (s.openWrite r value lanes)

/-! ## Reads (R316) -/

/-- What a register reads as: its word, with the fields that tell of the grid as it stands (R167), and a counter's word from the physical entry
that its vat's map names (R168). -/
def State.readReg (s : State) (r : Reg) : Word64 :=
  match r with
  | .vat v .meshStatus => putFld (s.getReg r) 0 0 (if s.drained v then 1 else 0)
  | .meshRegionStat g => putFld (s.getReg r) 54 54 (if s.bypassIn g then 1 else 0)
  | .vat v (.ctr i w) => s.getReg (.vat v (.ctr (s.sameEntry v i) w))
  | _ => s.getReg r
/-- What a read of BAR0 answers: the register whole, or half of it; zero for an offset without a register, an unaligned access or one of
another width (R7, R316). -/
def State.bar0Read (s : State) (off width : Nat) : Word64 :=
  match accessLanes off width, regAt (off / 8 * 8) with
  | some _, some r =>
    let x := s.readReg r
    if width = 64 then x else if off % 8 = 0 then w64 (fld x 31 0) else w64 (fld x 63 32)
  | _, _ => 0

/-! ## Writes -/

/-- REGISTER_WRITE: an aligned 32-bit or 64-bit write of BAR0; any other writes nothing, and so does a write to an offset without a
register, or to a block that does not take writes yet (R316, R318, R340). -/
def execRegisterWrite (off width : Nat) (value : Word64) (s : State) : Result :=
  match accessLanes off width, regAt (off / 8 * 8) with
  | some lanes, some r =>
    if s.barUp && (!readyOnly r || s.hostReady) then s.writeReg r (accessValue off width value) lanes else .next s
  | _, _ => .next s

end Sys2Proof.Machine
end

