-- ==== Sys2Proof/Machine/Memory.lean ====
section
/-! DEFINITION. Loads, stores and POSLD (R189, R206, R227). -/

namespace Sys2Proof.Machine

/-- Bytes of a scalar access. -/
def widthOf (f : FmtM) : Nat := 2 ^ f.width.toNat
/-- Reserved fields of format M. -/
def badRsvM (f : FmtM) : Bool := f.rsv1 ≠ 0 || f.rsv2 ≠ 0
/-- An activation buffer, a busy tile or the thread's own move holds the access (R74, R76, R225). -/
def memHold (k : Core) (t : Fin 16) (write : Bool) (a n : Nat) : Bool :=
  k.busyAt a n || (write && k.bufRead a n) || k.heldByMove t write a n

/-- LD: 1, 2, 4 or 8 bytes into s[D], sign-extended when SIGN (R206). -/
def execLd (t : Site) (f : FmtM) (s : State) : Result :=
  let h := s.thread t
  let k := s.core t.core
  let a := effAddr h f
  let n := widthOf f
  issue s t (memHold k t.thread false a n) true
    [(badRsvM f || f.acc ≠ 0 || (f.width = 3 && f.sign ≠ 0), .illegal), (badLoad k false a n, .address)]
    (fun u =>
      if k.doubleAt a n then s.dataFault t
      else (u.readCounted t.core a n).setS t f.d (extend (8 * n) (f.sign = 1) (ofLe (s.readLocal t.core a n))))

/-- A thread's store of bytes, plain or accumulating. A store narrower than its check word reads the word first (R64), and
an accumulate reads it too (R65); a double-bit error there is a data fault. -/
def storeAt (s u : State) (t : Site) (acc a : Nat) (bs : List Byte) : State :=
  let k := s.core t.core
  if (acc ≠ 0 || bs.length < 4) && k.doubleAt a bs.length then s.dataFault t
  else if acc ≠ 0 || bs.length < 4 then (u.readCounted t.core (a / 4 * 4) (max 4 bs.length)).storeLocal t.core acc a bs
  else u.storeLocal t.core acc a bs

/-- ST: the low bytes of s[D], plainly or accumulating; a control word as R85, the gate word never (R67, R206). -/
def execSt (t : Site) (f : FmtM) (s : State) : Result :=
  let h := s.thread t
  let k := s.core t.core
  let a := effAddr h f
  let n := widthOf f
  issue s t (memHold k t.thread true a n) true
    [(badRsvM f || f.acc = 3 || f.sign ≠ 0, .illegal), ((f.acc = 1 || f.acc = 2) && f.width ≠ 2, .format),
     (badStore k false f.acc.toNat a n, .address), (decide (a = 0x3F0010), .protect)]
    (fun u =>
      if 0x3F0000 ≤ a then u.modCore t.core (fun k => k.putCtrl (a - 0x3F0000) (h.sreg f.d))
      else storeAt s u t f.acc.toNat a (leBytes n (h.sreg f.d).toNat))

/-- The fields of VLD and VST: D[4:3] zero, WIDTH 2, SIGN 0 (R191, R206). -/
def badVec (f : FmtM) : Bool := badRsvM f || 8 ≤ f.d.toNat || f.width ≠ 2 || f.sign ≠ 0

/-- VLD: 64 words from scratchpad or cream into v[D] (R206). -/
def execVld (t : Site) (f : FmtM) (s : State) : Result :=
  let h := s.thread t
  let k := s.core t.core
  let a := effAddr h f
  issue s t (memHold k t.thread false a 256) true
    [(badVec f || f.acc ≠ 0, .illegal), (badLoad k true a 256, .address)]
    (fun u =>
      if k.doubleAt a 256 then s.dataFault t
      else (u.readCounted t.core a 256).setV t (vregOf f.d) (toWords (s.readLocal t.core a 256)))

/-- VST: 64 words of v[D] to scratchpad, plainly or accumulating (R206). -/
def execVst (t : Site) (f : FmtM) (s : State) : Result :=
  let h := s.thread t
  let k := s.core t.core
  let a := effAddr h f
  issue s t (memHold k t.thread true a 256) true
    [(badVec f || f.acc = 3, .illegal), (badStore k true f.acc.toNat a 256, .address)]
    (fun u => storeAt s u t f.acc.toNat a (ofWords (lanes (lane (h.vreg (vregOf f.d))))))

/-- POSLD: position register t takes halfword t of 8 bytes of scratchpad (R79, R227). -/
def execPosld (t : Site) (f : FmtM) (s : State) : Result :=
  let h := s.thread t
  let k := s.core t.core
  let a := effAddr h f
  issue s t (k.heldByMove t.thread false a 8) true
    [(badRsvM f || f.width ≠ 3 || f.d ≠ 0 || f.acc ≠ 0 || f.sign ≠ 0, .illegal),
     (!k.inSpm a 8 || a % 8 ≠ 0, .address)]
    (fun u =>
      if k.doubleAt a 8 then s.dataFault t
      else
        let v := memNat k.mem a 8
        (u.readCounted t.core a 8).modCore t.core (fun c =>
          { c with posRegs := [(0, BitVec.ofNat 16 v), (1, BitVec.ofNat 16 (v / 2 ^ 16)),
                               (2, BitVec.ofNat 16 (v / 2 ^ 32)), (3, BitVec.ofNat 16 (v / 2 ^ 48))] }))

end Sys2Proof.Machine
end

