-- ==== Sys2Proof/Machine/Scalar.lean ====
section
/-! DEFINITION. The scalar instructions (R204). -/

namespace Sys2Proof.Machine

/-- NOP: no effect; the all-zero word is its only encoding (R201, R204). -/
def execNop (t : Site) (f : FmtA) (s : State) : Result :=
  issue s t false true [(decide (f ≠ {}), .illegal)] (fun u => u)

/-- ADD: s[A] + y (R204). -/
def execAdd (t : Site) (f : FmtA) (s : State) : Result :=
  scalarOp s t f (decide (f.func ≠ 0)) (fun a y => a + y)

/-- SUB: s[A] − y (R204). -/
def execSub (t : Site) (f : FmtA) (s : State) : Result :=
  scalarOp s t f (decide (f.func ≠ 0)) (fun a y => a - y)

/-- AND: bitwise and (R204). -/
def execAnd (t : Site) (f : FmtA) (s : State) : Result :=
  scalarOp s t f (decide (f.func ≠ 0)) (fun a y => a &&& y)

/-- OR: bitwise or (R204). -/
def execOr (t : Site) (f : FmtA) (s : State) : Result :=
  scalarOp s t f (decide (f.func ≠ 0)) (fun a y => a ||| y)

/-- XOR: bitwise exclusive or (R204). -/
def execXor (t : Site) (f : FmtA) (s : State) : Result :=
  scalarOp s t f (decide (f.func ≠ 0)) (fun a y => a ^^^ y)

/-- SHL: s[A] shifted left by y[5:0] (R204). -/
def execShl (t : Site) (f : FmtA) (s : State) : Result :=
  scalarOp s t f (decide (f.func ≠ 0)) (fun a y => a <<< (y.toNat % 64))

/-- SHR: logical shift right by y[5:0] (R204). -/
def execShr (t : Site) (f : FmtA) (s : State) : Result :=
  scalarOp s t f (decide (f.func ≠ 0)) (fun a y => a >>> (y.toNat % 64))

/-- SRA: arithmetic shift right by y[5:0] (R204). -/
def execSra (t : Site) (f : FmtA) (s : State) : Result :=
  scalarOp s t f (decide (f.func ≠ 0)) (fun a y => a.sshiftRight (y.toNat % 64))

/-- CMP: 1 when condition FUNC holds for (s[A], y), else 0; a FUNC of 7 to 255 is ILLEGAL (R204). -/
def execCmp (t : Site) (f : FmtA) (s : State) : Result :=
  scalarOp s t f (decide (7 ≤ f.func.toNat)) (fun a y => if cond64 f.func.toNat a y then 1 else 0)

/-- MIN: signed minimum (R204). -/
def execMin (t : Site) (f : FmtA) (s : State) : Result :=
  scalarOp s t f (decide (f.func ≠ 0)) (fun a y => if y.slt a then y else a)

/-- MAX: signed maximum (R204). -/
def execMax (t : Site) (f : FmtA) (s : State) : Result :=
  scalarOp s t f (decide (f.func ≠ 0)) (fun a y => if a.slt y then y else a)

/-- MUL: the low 64 bits of the product (R204). -/
def execMul (t : Site) (f : FmtA) (s : State) : Result :=
  scalarOp s t f (decide (f.func ≠ 0)) (fun a y => a * y)

/-- MULHU: the high 64 bits of the unsigned 128-bit product (R204). -/
def execMulhu (t : Site) (f : FmtA) (s : State) : Result :=
  scalarOp s t f (decide (f.func ≠ 0)) (fun a y => w64 (a.toNat * y.toNat / 2 ^ 64))

/-- The fields that LI and LIH leave unused (R204). -/
def badLi (f : FmtA) : Bool := f.a ≠ 0 || f.b ≠ 0 || f.i ≠ 0 || f.func ≠ 0

/-- LI: s[D] = IMM sign-extended (R204). -/
def execLi (t : Site) (f : FmtA) (s : State) : Result :=
  issue s t false true [(badLi f, .illegal)] (fun u => u.setS t f.d (sext32 f.imm))

/-- LIH: s[D][63:32] = IMM, s[D][31:0] unchanged (R204). -/
def execLih (t : Site) (f : FmtA) (s : State) : Result :=
  issue s t false true [(badLi f, .illegal)]
    (fun u => u.setS t f.d (f.imm ++ ((s.thread t).sreg f.d).setWidth 32))

/-- RDSTAMP: s[D] = the tick number and s[D + 1] = the cycle count of one stamp (R49, R204); D = 31 is invalid. cyc is the
cycle of the region clock since the tick (log entry 9). -/
def execRdstamp (t : Site) (f : FmtA) (cyc : BitVec 24) (s : State) : Result :=
  issue s t false true [(badLi f || f.imm ≠ 0 || f.d = 31, .illegal)]
    (fun u => (u.setS t f.d (w64 (s.tickOf (halfOf (regionOf t.core))))).setS t (f.d + 1) (cyc.setWidth 64))

end Sys2Proof.Machine
end

