-- ==== Sys2Proof/Machine/Smbus.lean ====
section
/-! DEFINITION. Management over SMBus, the pins of the management header, and the test header (R334, R335, R388, R389). -/

namespace Sys2Proof.Machine

/-! ## Pins (R334, R388) -/

/-- MOD_READY: high in state READY. -/
def State.modReady (s : State) : Bool := s.modState = 5
/-- MOD_FAULT_N: low in state HALTED, and while QUENCHED is 1. -/
def State.modFaultN (s : State) : Bool := !(s.modState = 7 || s.rfld .thermStatus 24 24 = 1)
/-- SMB_ALERT_N: low while GLB_IRQ.EVENT is 1, until released by an Alert Response Address read. -/
def State.smbAlertN (s : State) : Bool := !(s.rfld .glbIrq 16 16 = 1) || s.pow.alertReleased
/-- The warden's SMBus address. -/
def State.smbAddress (s : State) : Nat := 0x58 + s.pow.straps.toNat

/-! ## Commands (R335) -/

/-- The warden answers: the module input is within its operating range. -/
def State.wardenAnswers (s : State) : Bool := s.rfld .pwrState 5 5 = 1
/-- The bytes of a block read, where the warden answers. -/
def State.answerBytes (s : State) (bs : List Byte) : State := if s.wardenAnswers then { s with smbus := bs } else s
/-- The eight bytes of a register. -/
def State.regBytes (s : State) (r : Reg) : List Byte := leBytes 8 (s.getReg r).toNat

/-- IDENT: GLB_ID. -/
def execIdent (s : State) : Result := .next (s.answerBytes (s.regBytes .glbId))

/-- TEMP of a region. -/
def State.tempOf (s : State) (r : Region) : Nat := s.rfld (.thermRegion r) 7 0
/-- The region with the highest TEMP, the lowest number on a tie. -/
def State.warmest (s : State) : Region := (allFin 192).foldl (fun a r => if s.tempOf a < s.tempOf r then r else a) 0
/-- STATE: the module state, the highest TEMP and the region that holds it. -/
def execSmState (s : State) : Result :=
  .next (s.answerBytes (leBytes 1 s.modState ++ leBytes 1 (s.tempOf s.warmest) ++ leBytes 1 s.warmest))

/-- The registers that READ_REG reaches. -/
def wardenReads : Reg → Bool
  | .glbId => true
  | .glbEventWr => true
  | .glbEvent _ _ => true
  | .thermRegion _ => true
  | .assayStatus => true
  | .linkStatus _ => true
  | .twinStatus => true
  | .pwrState => true
  | .pwrCtrl => true
  | .pwrWake _ => true
  | .pwrMap => true
  | .pwrRegion _ => true
  | .pwrGroup _ => true
  | .pwrDefect _ => true
  | _ => false
/-- READ_REG: eight bytes of a register it reaches, and zero bytes for any other offset. -/
def execReadReg (off : Nat) (s : State) : Result :=
  match regAt off with
  | some r => .next (s.answerBytes (if wardenReads r then s.regBytes r else List.replicate 8 0))
  | none => .next (s.answerBytes (List.replicate 8 0))

/-- EVENTS: both words of a log entry. -/
def execEvents (i : Fin 256) (s : State) : Result := .next (s.answerBytes (s.regBytes (.glbEvent i 0) ++ s.regBytes (.glbEvent i 1)))

/-- RESET: 0xA5 requests a module reset; any other byte is ignored. -/
def execSmbusReset (b : Byte) (s : State) : Result := if s.wardenAnswers && b = 0xA5 then .next s.askReset else .next s

/-- POWER_OFF: 0xA5 runs the shutdown sequence; ignored while it runs already, and where the rails are off. -/
def execPowerOff (b : Byte) (s : State) : Result :=
  if s.wardenAnswers && b = 0xA5 && s.inService then .next (s.beginShutdown true) else .next s

/-- FW_IMAGE: a block of a firmware image; the assay unit's refusal discards the image. -/
def execFwImage (block : List Byte) (hallmarkOk : Bool) (s : State) : Result :=
  if !s.wardenAnswers || 255 < block.length then .next s
  else if hallmarkOk then .next { s with pow := { s.pow with fwBuf := s.pow.fwBuf ++ block } }
  else .next (({ s with pow := { s.pow with fwBuf := [] } }.putR .assayStatus 1 0 3).putR .assayStatus 3 3 1)

/-- SMBUS_ALERT_RESPONSE: releases SMB_ALERT_N (R388). -/
def execSmbusAlertResponse (s : State) : Result :=
  if s.wardenAnswers then .next { s with pow := { s.pow with alertReleased := true } } else .next s

/-- TAP_INSTRUCTION: EXTEST, INTEST and CLAMP are carried out in OFF, CHECK and HALTED, and behave as BYPASS in other states (R389). -/
def execTapInstruction (op : TapOp) (cells : Word64) (s : State) : Result :=
  if s.modState = 0 || s.modState = 1 || s.modState = 7 then
    .next { s with pow := { s.pow with tapOp := op, tapCells := if op = .bypass then s.pow.tapCells else cells } }
  else .next { s with pow := { s.pow with tapOp := .bypass } }

end Sys2Proof.Machine
end

