-- ==== Sys2Proof/Machine/Threads.lean ====
section
/-! DEFINITION. Beat and thread control (R186, R187, R236) and illegal opcodes (R191, R192). -/

namespace Sys2Proof.Machine

/-- EOB: the thread is held until the vat's next beat edge; its solder arming is discarded (R187, R236). -/
def execEob (t : Site) (f : FmtB) (s : State) : Result :=
  issue s t false true [(decide (f ≠ {}), .illegal)]
    (fun u => u.modThread t (fun h => { h with status := .eob, solder := none }))

/-- TSTART: starts thread THREAD at index TARGET with s[B] in its s0; held while that thread is not idle (R186, R236). -/
def execTstart (t : Site) (f : FmtB) (s : State) : Result :=
  let x : Site := ⟨t.core, ⟨f.thread.toNat, f.thread.isLt⟩⟩
  let self := decide (x.thread = t.thread)
  issue s t (!self && decide ((s.thread x).status ≠ .idle)) true
    [(f.a ≠ 0 || f.cond ≠ 0 || f.rsv ≠ 0 || self, .illegal), (decide (2047 < f.target.toNat), .address)]
    (fun u => u.modThread x (fun h =>
      { (h.setS 0 ((s.thread t).sreg f.b)) with status := .ready, pc := f.target.toNat }))

/-- TSTOP: the thread becomes idle (R186, R236). -/
def execTstop (t : Site) (f : FmtB) (s : State) : Result :=
  issue s t false false [(decide (f ≠ {}), .illegal)] (fun u => u.setStatus t .idle)

/-- The thread's earlier MAC, MACA and TMOV have completed and its sends have been acknowledged (R236). -/
def fenceMet (k : Core) (t : Fin 16) : Bool :=
  k.jobs.all (fun j => j.thread ≠ t) && k.moves.all (fun m => m.thread ≠ t) && (k.thread t).undelivered = 0

/-- FENCE (R236). -/
def execFence (t : Site) (f : FmtB) (s : State) : Result :=
  issue s t (!fenceMet (s.core t.core) t.thread) true [(decide (f ≠ {}), .illegal)] (fun u => u)

/-- ILLEGAL_OPCODE: an instruction word whose opcode is outside the map faults with ILLEGAL (R191, R192). A word whose opcode
the map lists is not this command's, and changes nothing (log entry 7). -/
def execIllegalOpcode (t : Site) (w : Word64) (s : State) : Result :=
  issue s t (inOpcodeMap (w.toNat % 256)) true [(true, .illegal)] (fun u => u)

end Sys2Proof.Machine
end

