-- ==== Sys2Proof/Machine/Tick.lean ====
section
/-! DEFINITION. The tick (R31 to R36), with what happens at it (R53, R163, R199, R304, R314). -/

namespace Sys2Proof.Machine

/-- TICK: a half's generator emits a tick; the count is modulo 2^48 and the warden logs its wrap (R32, R34, R35). The vats that this module takes over
start (R304). -/
def execTick (h : Half) (s0 : State) : Result :=
  if !s0.runs h then .next s0
  else
    let s := if s0.rimHalf = h then s0.settleAll else s0
    let n := (s.tickOf h + 1) % 2 ^ 48
    let s1 := match h with
      | .north => { s with tickNorth := n }
      | .south => { s with tickSouth := n }
    if s.rimHalf = h then
      let s2 := s1.rimTick.takeDue
      .next (if n = 0 then s2.logEvent 0x0001 0 0 0 else s2)
    else .next s1

end Sys2Proof.Machine
end

