-- ==== Sys2Proof/Machine/Vector.lean ====
section
/-! DEFINITION. The short vector instructions (R208, R209). -/

namespace Sys2Proof.Machine

/-- FMT must be FP32 or INT32. -/
def badFmtV (f : FmtV) : Bool := f.fmt ≠ 0xD && f.fmt ≠ 0xE
/-- FP32 arithmetic is named, not INT32. -/
def isFp (f : FmtV) : Bool := f.fmt = 0xD

/-- vd = op va vb per lane, in FP32 or INT32; VC and FUNC are unused (R201, R208). -/
def vecBin (s : State) (t : Site) (f : FmtV) (fp int : Word32 → Word32 → Word32) : Result :=
  let h := s.thread t
  let op := if isFp f then fp else int
  issue s t false true
    [(badRsvV f || badSb f || f.vc ≠ 0 || f.func ≠ 0, .illegal), (badFmtV f, .format)]
    (fun u => u.setV t f.vd (lanes (fun i => op (lane (h.vreg f.va) i) (lane (vbOf h f) i))))

/-- VADD: vd = va + vb (R208). -/
def execVadd (t : Site) (f : FmtV) (s : State) : Result := vecBin s t f add32 (fun a b => a + b)
/-- VSUB: vd = va − vb (R208). -/
def execVsub (t : Site) (f : FmtV) (s : State) : Result := vecBin s t f sub32 (fun a b => a - b)
/-- VMUL: vd = va × vb (R208). -/
def execVmul (t : Site) (f : FmtV) (s : State) : Result := vecBin s t f mul32 (fun a b => a * b)
/-- VMIN: the minimum (R103, R208); INT32 lanes are signed (log entry 10). -/
def execVmin (t : Site) (f : FmtV) (s : State) : Result := vecBin s t f min32 (fun a b => if b.slt a then b else a)
/-- VMAX: the maximum (R103, R208); INT32 lanes are signed (log entry 10). -/
def execVmax (t : Site) (f : FmtV) (s : State) : Result := vecBin s t f max32 (fun a b => if a.slt b then b else a)

/-- VFMA: vd = va × vb + vc, rounded once, or its low 32 bits (R208). -/
def execVfma (t : Site) (f : FmtV) (s : State) : Result :=
  let h := s.thread t
  issue s t false true
    [(badRsvV f || badSb f || f.func ≠ 0, .illegal), (badFmtV f, .format)]
    (fun u => u.setV t f.vd (lanes (fun i =>
      let a := lane (h.vreg f.va) i
      let b := lane (vbOf h f) i
      let c := lane (h.vreg f.vc) i
      if isFp f then fma32 a b c else a * b + c)))

/-- A condition code of VCMP for two INT32 lanes (R191, R208). -/
def condInt (code : Nat) (a b : Word32) : Bool :=
  if code = 1 then a = b
  else if code = 2 then a ≠ b
  else if code = 3 then a.slt b
  else if code = 4 then !a.slt b
  else if code = 5 then a.ult b
  else if code = 6 then !a.ult b
  else false

/-- VCMP: vd = 1 where condition FUNC holds, else 0; 5 and 6 with INT32 only, and 0 for a NaN operand (R208). -/
def execVcmp (t : Site) (f : FmtV) (s : State) : Result :=
  let h := s.thread t
  let code := f.func.toNat
  issue s t false true
    [(badRsvV f || badSb f || f.vc ≠ 0 || decide (code = 0) || decide (6 < code) || (isFp f && decide (4 < code)), .illegal),
     (badFmtV f, .format)]
    (fun u => u.setV t f.vd (lanes (fun i =>
      let a := lane (h.vreg f.va) i
      let b := lane (vbOf h f) i
      if (if isFp f then cond32 code a b else condInt code a b) then 1 else 0)))

/-- VSEL: vd = va where the word of vc is not zero, else vb (R208). -/
def execVsel (t : Site) (f : FmtV) (s : State) : Result :=
  let h := s.thread t
  issue s t false true
    [(badRsvV f || badSb f || f.func ≠ 0, .illegal), (badFmtV f, .format)]
    (fun u => u.setV t f.vd (lanes (fun i =>
      if lane (h.vreg f.vc) i ≠ 0 then lane (h.vreg f.va) i else lane (vbOf h f) i)))

/-- VBCAST: every lane takes s[S][31:0] (R208). -/
def execVbcast (t : Site) (f : FmtV) (s : State) : Result :=
  issue s t false true
    [(badRsvV f || f.va ≠ 0 || f.vb ≠ 0 || f.vc ≠ 0 || f.sb ≠ 0 || f.func ≠ 0, .illegal), (badFmtV f, .format)]
    (fun u => u.setV t f.vd (List.replicate 64 (((s.thread t).sreg f.s).setWidth 32)))

/-- A lane as a scalar: FP32 zero-extended, INT32 sign-extended. -/
def laneToScalar (fp : Bool) (w : Word32) : Word64 := if fp then w.setWidth 64 else w.signExtend 64

/-- VEXT: s[S] = lane FUNC[5:0] of va (R208). -/
def execVext (t : Site) (f : FmtV) (s : State) : Result :=
  issue s t false true
    [(badRsvV f || f.vd ≠ 0 || f.vb ≠ 0 || f.vc ≠ 0 || f.sb ≠ 0 || decide (64 ≤ f.func.toNat), .illegal),
     (badFmtV f, .format)]
    (fun u => u.setS t f.s (laneToScalar (isFp f) (lane ((s.thread t).vreg f.va) f.func.toNat)))

/-- The formats VCVT takes, and bits of an element. -/
def cvtBits (code : Nat) : Option Nat :=
  if code = 0xB ∨ code = 0xC then some 16
  else if code = 0x7 ∨ code = 0x8 ∨ code = 0xA then some 8
  else if code = 0xE then some 32
  else none

/-- Packed elements of so many bits from a lane's converted neighbours. -/
def packLane (bits code : Nat) (xs : List Word32) (i : Nat) : Word32 :=
  w32 ((upTo (32 / bits)).foldl (fun acc j => acc + narrow code (lane xs (32 / bits * i + j)) * 2 ^ (bits * j)) 0)

/-- The result of a narrowing VCVT (R209). -/
def cvtNarrow (code bits : Nat) (va vb : List Word32) : List Word32 :=
  let per := 64 / (32 / bits)
  lanes (fun i =>
    if bits = 32 then packLane bits code va i
    else if i < per then packLane bits code va i
    else if i < 2 * per then packLane bits code vb (i - per)
    else 0)

/-- The result of a widening VCVT from packed element first on (R209). -/
def cvtWiden (code bits first : Nat) (va : List Word32) : List Word32 :=
  let per := 32 / bits
  lanes (fun i =>
    let e := first + i
    widen code ((lane va (e / per)).toNat / 2 ^ (bits * (e % per)) % 2 ^ bits))

/-- VCVT: FUNC[0] = 0 narrows va and vb from FP32, 1 widens 64 elements of va from element 64 × FUNC[3:2] (R106, R209). VB
is unused when it narrows to INT32 and when it widens. -/
def execVcvt (t : Site) (f : FmtV) (s : State) : Result :=
  let h := s.thread t
  let code := f.fmt.toNat
  let bits := (cvtBits code).getD 32
  let wide := bitAt f.func 0
  let quarter := fld f.func 3 2
  let noVb := wide || bits = 32
  issue s t false true
    [(badRsvV f || f.vc ≠ 0 || (if noVb then f.vb ≠ 0 || f.sb ≠ 0 || f.s ≠ 0 else badSb f)
        || bitAt f.func 1 || decide (fld f.func 15 4 ≠ 0)
        || (if wide then (cvtBits code).isSome && decide (256 / (bits / 8) ≤ 64 * quarter) else decide (quarter ≠ 0)), .illegal),
     ((cvtBits code).isNone, .format)]
    (fun u => u.setV t f.vd
      (if wide then cvtWiden code bits (64 * quarter) (h.vreg f.va) else cvtNarrow code bits (h.vreg f.va) (vbOf h f)))

end Sys2Proof.Machine
end

