-- ==== Sys2Proof/Machine/VectorLong.lean ====
section
/-! DEFINITION. The long vector instructions (R105, R210 to R215). -/

namespace Sys2Proof.Machine

/-- vd = op va per lane, FP32 only; every other field unused (R210). -/
def vecUn (s : State) (t : Site) (f : FmtV) (op : Word32 → Word32) : Result :=
  issue s t false true
    [(badRsvV f || f.vb ≠ 0 || f.vc ≠ 0 || f.sb ≠ 0 || f.s ≠ 0 || f.func ≠ 0, .illegal), (!isFp f, .format)]
    (fun u => u.setV t f.vd (lanes (fun i => op (lane ((s.thread t).vreg f.va) i))))

/-- VEXP2 (R105, R210). -/
def execVexp2 (t : Site) (f : FmtV) (s : State) : Result := vecUn s t f exp2w
/-- VRCP: the reciprocal (R105, R210). -/
def execVrcp (t : Site) (f : FmtV) (s : State) : Result := vecUn s t f rcpw
/-- VRSQRT: the reciprocal square root (R105, R210). -/
def execVrsqrt (t : Site) (f : FmtV) (s : State) : Result := vecUn s t f rsqrtw

/-- s[S] = the 64 lanes of va reduced (R105, R210). -/
def vecRed (s : State) (t : Site) (f : FmtV) (fp int : Word32 → Word32 → Word32) : Result :=
  let v := (s.thread t).vreg f.va
  issue s t false true
    [(badRsvV f || f.vd ≠ 0 || f.vb ≠ 0 || f.vc ≠ 0 || f.sb ≠ 0 || f.func ≠ 0, .illegal), (badFmtV f, .format)]
    (fun u => u.setS t f.s (laneToScalar (isFp f)
      ((pairTree (if isFp f then fp else int) 6 (lanes (lane v))).headD 0)))

/-- VSUM: the pairwise tree in lane order (R105, R210). -/
def execVsum (t : Site) (f : FmtV) (s : State) : Result := vecRed s t f add32 (fun a b => a + b)
/-- VMAXR: the maximum, the canonical NaN when every lane is NaN (R103, R210). -/
def execVmaxr (t : Site) (f : FmtV) (s : State) : Result := vecRed s t f max32 (fun a b => if a.slt b then b else a)

/-- A register's bytes, byte k in bits [8(k mod 4) + 7 : 8(k mod 4)] of lane k div 4 (R211). -/
def vbytes (v : List Word32) : List Byte := ofWords (lanes (lane v))
/-- Bytes laid over a register from byte k on. -/
def overlay (v : List Word32) (k : Nat) (bs : List Byte) : List Word32 :=
  let old := vbytes v
  toWords (old.take k ++ bs ++ old.drop (k + bs.length))

/-- VPACK: two MXFP8 blocks of va; element bytes to lanes 16q on of VD, scales to bytes 2n and 2n + 1 of VC (R107, R211). -/
def execVpack (t : Site) (f : FmtV) (s : State) : Result :=
  let h := s.thread t
  let n := f.func.toNat
  let v := lanes (lane (h.vreg f.va))
  let p := packBlock (f.fmt = 4) (v.take 32)
  let q := packBlock (f.fmt = 4) (v.drop 32)
  let elems := (p.2 ++ q.2).map (BitVec.ofNat 8)
  let scales := [BitVec.ofNat 8 p.1, BitVec.ofNat 8 q.1]
  issue s t false true
    [(badRsvV f || f.vb ≠ 0 || f.sb ≠ 0 || f.s ≠ 0 || decide (32 ≤ n) || f.vc = f.vd, .illegal),
     (f.fmt ≠ 3 && f.fmt ≠ 4, .format)]
    (fun u => (u.setV t f.vd (overlay (h.vreg f.vd) (64 * (n % 4)) elems)).setV t f.vc
      (overlay (h.vreg f.vc) (2 * n) scales))

/-- A register number is odd. -/
def oddV (r : BitVec 3) : Bool := bitAt r 0

/-- VCOMB: (VD, VD + 1) = pair_combine (VA, VA + 1, VB, VB + 1) (R100, R212). -/
def execVcomb (t : Site) (f : FmtV) (s : State) : Result :=
  let h := s.thread t
  let at_ (i : Nat) := pairCombine (lane (h.vreg f.va) i, lane (h.vreg (f.va + 1)) i)
    (lane (h.vreg f.vb) i, lane (h.vreg (f.vb + 1)) i)
  issue s t false true
    [(badRsvV f || f.vc ≠ 0 || f.sb ≠ 0 || f.s ≠ 0 || f.func ≠ 0 || oddV f.vd || oddV f.va || oddV f.vb, .illegal),
     (!isFp f, .format)]
    (fun u => (u.setV t f.vd (lanes (fun i => (at_ i).1))).setV t (f.vd + 1) (lanes (fun i => (at_ i).2)))

/-- The order of VTOPK: a stands before b (R213). -/
def topBefore (a b : Word32 × Word32) : Bool :=
  let x := dec32 a.1
  let y := dec32 b.1
  if x.isNan && y.isNan then a.2.ult b.2
  else if x.isNan then false
  else if y.isNan then true
  else if fpBelow y x then true
  else if fpBelow x y then false
  else a.2.ult b.2

/-- A candidate inserted before the first one it stands before. -/
def topInsert (a : Word32 × Word32) : List (Word32 × Word32) → List (Word32 × Word32)
  | [] => [a]
  | b :: bs => if topBefore a b then a :: b :: bs else b :: topInsert a bs

/-- The candidates in VTOPK's order; candidates equal in value and identifier keep theirs. -/
def topSort (xs : List (Word32 × Word32)) : List (Word32 × Word32) := xs.foldl (fun acc a => topInsert a acc) []

/-- VTOPK: the 128 candidates of (VA, VA + 1) and (VB, VB + 1) in descending order, the first 64 to (VD, VD + 1), the rest
to (VC, VC + 1) (R213). -/
def execVtopk (t : Site) (f : FmtV) (s : State) : Result :=
  let h := s.thread t
  let cand (r : BitVec 3) := (upTo 64).map (fun i =>
    let w := lane (h.vreg r) i
    (if (dec32 w).isNan then nan32 else w, lane (h.vreg (r + 1)) i))
  let sorted := topSort (cand f.va ++ cand f.vb)
  let hi := sorted.take 64
  let lo := sorted.drop 64
  issue s t false true
    [(badRsvV f || f.sb ≠ 0 || f.s ≠ 0 || f.func ≠ 0 || oddV f.vd || oddV f.va || oddV f.vb || oddV f.vc || f.vd = f.vc,
      .illegal), (!isFp f, .format)]
    (fun u => (((u.setV t f.vd (hi.map Prod.fst)).setV t (f.vd + 1) (hi.map Prod.snd)).setV t f.vc
      (lo.map Prod.fst)).setV t (f.vc + 1) (lo.map Prod.snd))

/-- The running sums c_0, c_1, … of a list of probabilities (R214). -/
def runningSums (c : Word32) : List Word32 → List Word32
  | [] => [c]
  | x :: xs => c :: runningSums (add32 c x) xs

/-- VTOPP: lane i of VD is 1 where c_i < p; lane 0 of VC takes c_64 (R214). VC names the carry's register also when it is
VD: the lane of VC is written last (log entry 10). -/
def execVtopp (t : Site) (f : FmtV) (s : State) : Result :=
  let h := s.thread t
  let p : Word32 := (h.sreg f.s).setWidth 32
  let cs := runningSums (lane (h.vreg f.vb) 0) (lanes (lane (h.vreg f.va)))
  issue s t false true
    [(badRsvV f || f.sb ≠ 0 || f.func ≠ 0, .illegal), (!isFp f, .format)]
    (fun u =>
      let u1 := u.setV t f.vd (lanes (fun i => if cond32 3 (lane cs i) p then 1 else 0))
      u1.setV t f.vc ((lanes (lane ((u1.thread t).vreg f.vc))).set 0 (lane cs 64)))

/-- mix64 of R215. -/
def mix64 (z : Word64) : Word64 :=
  let a := (z ^^^ (z >>> 30)) * 0xBF58476D1CE4E5B9
  let b := (a ^^^ (a >>> 27)) * 0x94D049BB133111EB
  b ^^^ (b >>> 31)

/-- draw of R215, as an FP32 word. -/
def draw (seed n : Word64) : Word32 :=
  let z := mix64 (seed + (n + 1) * 0x9E3779B97F4A7C15)
  enc32 (.fin false (z.toNat / 2 ^ 40) (-24))

/-- VDRAW: lane i receives draw (s[S], s[S + 1] + i) (R215). -/
def execVdraw (t : Site) (f : FmtV) (s : State) : Result :=
  let h := s.thread t
  issue s t false true
    [(badRsvV f || f.va ≠ 0 || f.vb ≠ 0 || f.vc ≠ 0 || f.sb ≠ 0 || f.func ≠ 0 || f.s = 31, .illegal), (!isFp f, .format)]
    (fun u => u.setV t f.vd (lanes (fun i => draw (h.sreg f.s) (h.sreg (f.s + 1) + w64 i))))

end Sys2Proof.Machine
end

