-- ==== Sys2Proof/Machine/Wait.lean ====
section
/-! DEFINITION. The wait and signal instructions (R171, R175, R177, R178, R235). -/

namespace Sys2Proof.Machine

/-- The id of a format-W instruction. -/
def vidOf (f : FmtW) : Vid := ⟨f.vid.toNat, f.vid.isLt⟩
/-- Reserved fields of format W. -/
def badRsvW (f : FmtW) : Bool := f.rsv1 ≠ 0 || f.rsv2 ≠ 0
/-- The id is absent from the core's mirror table, or its counter's mode is not the one asked for (R235). -/
def State.badMirror (s : State) (c : CoreId) (i : Vid) (barrier : Bool) : Bool :=
  match s.vatOf c with
  | some v => !s.mirrored v i c || s.isBarrier v i != barrier
  | none => true
/-- The mirror entry of an id in a thread's core. -/
def State.mirrorOf (s : State) (c : CoreId) (i : Vid) : Mirror :=
  match s.vatOf c with
  | some v => s.mirror v i c
  | none => {}
/-- A thread that waits from now on (R180). -/
def State.waitAt (s : State) (t : Site) (x : ThreadStatus) : State :=
  s.modThread t (fun h => { h with status := x, waitSince := s.tickOf (halfOf (regionOf t.core)) })

/-- SADD: sends ADD VALUE, held until the thread's sends are delivered (R178, R235). -/
def execSadd (t : Site) (f : FmtW) (s : State) : Result :=
  issue s t (decide ((s.thread t).undelivered ≠ 0)) true
    [(badRsvW f || f.s ≠ 0, .illegal), (s.badVid t.core f.vid || f.value = 0, .counter)]
    (fun u =>
      match s.vatOf t.core with
      | some v => u.sendSignal t.core v (vidOf f) 1 0 f.value.toNat
      | none => u)

/-- The arrival of a thread at a barrier: its bit is set and ARRIVE carries the mirror's generation (R177). -/
def State.arrive (s : State) (t : Site) (i : Vid) : State :=
  match s.vatOf t.core with
  | none => s
  | some v =>
    let m := s.mirror v i t.core
    (s.setMirror i t.core { m with arrived := m.arrived ||| (1#16 <<< t.thread.val) }).sendSignal t.core v i 2 m.gen.toNat 0

/-- ARRIVE and ARRIVEW: held while the thread's data are not delivered (R178); a second arrival in a round is held at the
head until the round completes (R177). -/
def arriveOp (t : Site) (f : FmtW) (s : State) (eff : State → State) : Result :=
  let m := s.mirrorOf t.core (vidOf f)
  let chk : List (Bool × Status) :=
    [(badRsvW f || f.s ≠ 0 || f.value ≠ 0, .illegal), (s.badVid t.core f.vid || s.badMirror t.core (vidOf f) true, .counter)]
  if s.canIssue t && (s.thread t).undelivered = 0 && (firstFault chk).isNone && bitAt m.arrived t.thread then
    .next (s.waitAt t (.heldArrive (vidOf f)))
  else issue s t (decide ((s.thread t).undelivered ≠ 0)) true chk eff

/-- ARRIVE: arrives and continues (R177, R235). -/
def execArrive (t : Site) (f : FmtW) (s : State) : Result := arriveOp t f s (fun u => u.arrive t (vidOf f))

/-- ARRIVEW: arrives, then waits as WAITG does (R177, R235). -/
def execArrivew (t : Site) (f : FmtW) (s : State) : Result :=
  arriveOp t f s (fun u => (u.arrive t (vidOf f)).waitAt t (.waitG (vidOf f)))

/-- WAITV: waits until the mirror's VALUE reaches s[S][31:0] (R175, R235). -/
def execWaitv (t : Site) (f : FmtW) (s : State) : Result :=
  let target : Word32 := ((s.thread t).sreg f.s).setWidth 32
  issue s t false true
    [(badRsvW f || f.value ≠ 0, .illegal), (s.badVid t.core f.vid || s.badMirror t.core (vidOf f) false, .counter)]
    (fun u => if waitMet (s.mirrorOf t.core (vidOf f)).value target then u else u.waitAt t (.waitV (vidOf f) target))

/-- WAITG: waits until the thread's arrived bit for the id is 0 (R235). -/
def execWaitg (t : Site) (f : FmtW) (s : State) : Result :=
  issue s t false true
    [(badRsvW f || f.s ≠ 0 || f.value ≠ 0, .illegal), (s.badVid t.core f.vid || s.badMirror t.core (vidOf f) true, .counter)]
    (fun u => if bitAt (s.mirrorOf t.core (vidOf f)).arrived t.thread then u.waitAt t (.waitG (vidOf f)) else u)

end Sys2Proof.Machine
end

