-- ==== Sys2Proof/Machine/Dispatch.lean ====
section
/-! DEFINITION. Dispatch: one arm per command, one direct call of its meaning. -/

namespace Sys2Proof.Machine

/-- What a command does to everything but the queue of commands. -/
def exec (i : Instr) (s : State) : Host.Outcome State Fault Refusal :=
  match i with
  | .nop t f => Sys2Proof.Machine.execNop t f s
  | .add t f => Sys2Proof.Machine.execAdd t f s
  | .sub t f => Sys2Proof.Machine.execSub t f s
  | .and t f => Sys2Proof.Machine.execAnd t f s
  | .or t f => Sys2Proof.Machine.execOr t f s
  | .xor t f => Sys2Proof.Machine.execXor t f s
  | .shl t f => Sys2Proof.Machine.execShl t f s
  | .shr t f => Sys2Proof.Machine.execShr t f s
  | .sra t f => Sys2Proof.Machine.execSra t f s
  | .cmp t f => Sys2Proof.Machine.execCmp t f s
  | .min t f => Sys2Proof.Machine.execMin t f s
  | .max t f => Sys2Proof.Machine.execMax t f s
  | .mul t f => Sys2Proof.Machine.execMul t f s
  | .mulhu t f => Sys2Proof.Machine.execMulhu t f s
  | .li t f => Sys2Proof.Machine.execLi t f s
  | .lih t f => Sys2Proof.Machine.execLih t f s
  | .rdstamp t f cyc => Sys2Proof.Machine.execRdstamp t f cyc s
  | .br t f => Sys2Proof.Machine.execBr t f s
  | .jr t f => Sys2Proof.Machine.execJr t f s
  | .ld t f => Sys2Proof.Machine.execLd t f s
  | .st t f => Sys2Proof.Machine.execSt t f s
  | .vld t f => Sys2Proof.Machine.execVld t f s
  | .vst t f => Sys2Proof.Machine.execVst t f s
  | .vadd t f => Sys2Proof.Machine.execVadd t f s
  | .vsub t f => Sys2Proof.Machine.execVsub t f s
  | .vmul t f => Sys2Proof.Machine.execVmul t f s
  | .vfma t f => Sys2Proof.Machine.execVfma t f s
  | .vmin t f => Sys2Proof.Machine.execVmin t f s
  | .vmax t f => Sys2Proof.Machine.execVmax t f s
  | .vcmp t f => Sys2Proof.Machine.execVcmp t f s
  | .vsel t f => Sys2Proof.Machine.execVsel t f s
  | .vcvt t f => Sys2Proof.Machine.execVcvt t f s
  | .vbcast t f => Sys2Proof.Machine.execVbcast t f s
  | .vext t f => Sys2Proof.Machine.execVext t f s
  | .vexp2 t f => Sys2Proof.Machine.execVexp2 t f s
  | .vrcp t f => Sys2Proof.Machine.execVrcp t f s
  | .vrsqrt t f => Sys2Proof.Machine.execVrsqrt t f s
  | .vsum t f => Sys2Proof.Machine.execVsum t f s
  | .vmaxr t f => Sys2Proof.Machine.execVmaxr t f s
  | .vpack t f => Sys2Proof.Machine.execVpack t f s
  | .vcomb t f => Sys2Proof.Machine.execVcomb t f s
  | .vtopk t f => Sys2Proof.Machine.execVtopk t f s
  | .vtopp t f => Sys2Proof.Machine.execVtopp t f s
  | .vdraw t f => Sys2Proof.Machine.execVdraw t f s
  | .mac t f => Sys2Proof.Machine.execMac t f s
  | .macComplete c => Sys2Proof.Machine.execMacComplete c s
  | .maca t f => Sys2Proof.Machine.execMaca t f s
  | .macaComplete c => Sys2Proof.Machine.execMacaComplete c s
  | .tclr t f => Sys2Proof.Machine.execTclr t f s
  | .solder t f => Sys2Proof.Machine.execSolder t f s
  | .tmov t f => Sys2Proof.Machine.execTmov t f s
  | .tmovComplete t => Sys2Proof.Machine.execTmovComplete t s
  | .dma t f => Sys2Proof.Machine.execDma t f s
  | .dmaDescriptorStart c => Sys2Proof.Machine.execDmaDescriptorStart c s
  | .dmaDescriptorComplete c n => Sys2Proof.Machine.execDmaDescriptorComplete c n s
  | .send t f => Sys2Proof.Machine.execSend t f s
  | .sadd t f => Sys2Proof.Machine.execSadd t f s
  | .arrive t f => Sys2Proof.Machine.execArrive t f s
  | .arrivew t f => Sys2Proof.Machine.execArrivew t f s
  | .waitv t f => Sys2Proof.Machine.execWaitv t f s
  | .waitg t f => Sys2Proof.Machine.execWaitg t f s
  | .walk t f => Sys2Proof.Machine.execWalk t f s
  | .posld t f => Sys2Proof.Machine.execPosld t f s
  | .eob t f => Sys2Proof.Machine.execEob t f s
  | .tstart t f => Sys2Proof.Machine.execTstart t f s
  | .tstop t f => Sys2Proof.Machine.execTstop t f s
  | .fence t f => Sys2Proof.Machine.execFence t f s
  | .flitForward r out cyc => Sys2Proof.Machine.execFlitForward r out cyc s
  | .flitReceive r inp crcOk => Sys2Proof.Machine.execFlitReceive r inp crcOk s
  | .meshReplay r out => Sys2Proof.Machine.execMeshReplay r out s
  | .flitDelivery r => Sys2Proof.Machine.execFlitDelivery r s
  | .deliveryAcknowledgement c => Sys2Proof.Machine.execDeliveryAcknowledgement c s
  | .creditReturn r out vc => Sys2Proof.Machine.execCreditReturn r out vc s
  | .seamMessageCheck n toHalf => Sys2Proof.Machine.execSeamMessageCheck n toHalf s
  | .serveRound p dir => Sys2Proof.Machine.execServeRound p dir s
  | .meshCommitGo v => Sys2Proof.Machine.execMeshCommitGo v s
  | .meshTablesApply v => Sys2Proof.Machine.execMeshTablesApply v s
  | .tick h => Sys2Proof.Machine.execTick h s
  | .tickLoss r => Sys2Proof.Machine.execTickLoss r s
  | .tickCommitGo => Sys2Proof.Machine.execTickCommitGo s
  | .vatCommitGo v => Sys2Proof.Machine.execVatCommitGo v s
  | .stagedCommitApply g => Sys2Proof.Machine.execStagedCommitApply g s
  | .beatGate v => Sys2Proof.Machine.execBeatGate v s
  | .slipLimitExceeded v => Sys2Proof.Machine.execSlipLimitExceeded v s
  | .doneReport v stage => Sys2Proof.Machine.execDoneReport v stage s
  | .faultReport v k => Sys2Proof.Machine.execFaultReport v k s
  | .vatStop v => Sys2Proof.Machine.execVatStop v s
  | .storeAdd h col => Sys2Proof.Machine.execStoreAdd h col s
  | .storeArrive h col => Sys2Proof.Machine.execStoreArrive h col s
  | .notify c => Sys2Proof.Machine.execNotify c s
  | .coreIdleMark c => Sys2Proof.Machine.execCoreIdleMark c s
  | .lendStep lender borrower => Sys2Proof.Machine.execLendStep lender borrower s
  | .recipeReport v k => Sys2Proof.Machine.execRecipeReport v k s
  | .burnishRead t last => Sys2Proof.Machine.execBurnishRead t last s
  | .memEccfatal c addr => Sys2Proof.Machine.execMemEccfatal c addr s
  | .start v => Sys2Proof.Machine.execStart v s
  | .quiesce v => Sys2Proof.Machine.execQuiesce v s
  | .resume v => Sys2Proof.Machine.execResume v s
  | .reset v => Sys2Proof.Machine.execReset v s
  | .release v => Sys2Proof.Machine.execRelease v s
  | .quiesced v => Sys2Proof.Machine.execQuiesced v s
  | .resetDone v => Sys2Proof.Machine.execResetDone v s
  | .releaseDone v => Sys2Proof.Machine.execReleaseDone v s
  | .fill v pail => Sys2Proof.Machine.execFill v pail s
  | .headerAcknowledge v pail => Sys2Proof.Machine.execHeaderAcknowledge v pail s
  | .commitReport v st sampled tick => Sys2Proof.Machine.execCommitReport v st sampled tick s
  | .budgetWindow v => Sys2Proof.Machine.execBudgetWindow v s
  | .skimIdle v st => Sys2Proof.Machine.execSkimIdle v st s
  | .skimCopyDone v st => Sys2Proof.Machine.execSkimCopyDone v st s
  | .restoreDone v st => Sys2Proof.Machine.execRestoreDone v st s
  | .prefillGroup v => Sys2Proof.Machine.execPrefillGroup v s
  | .prefillPassDone v => Sys2Proof.Machine.execPrefillPassDone v s
  | .handoffComplete v st stage => Sys2Proof.Machine.execHandoffComplete v st stage s
  | .sqDoorbell n width32 value => Sys2Proof.Machine.execSqDoorbell n width32 value s
  | .cqDoorbell n width32 value => Sys2Proof.Machine.execCqDoorbell n width32 value s
  | .entryFetch n entry => Sys2Proof.Machine.execEntryFetch n entry s
  | .entryReadFailed n => Sys2Proof.Machine.execEntryReadFailed n s
  | .request n => Sys2Proof.Machine.execRequest n s
  | .cancel n => Sys2Proof.Machine.execCancel n s
  | .skim n => Sys2Proof.Machine.execSkim n s
  | .promptRead v st ok tokens => Sys2Proof.Machine.execPromptRead v st ok tokens s
  | .heldCompletionWrite v st => Sys2Proof.Machine.execHeldCompletionWrite v st s
  | .coalesceWindowEnd n => Sys2Proof.Machine.execCoalesceWindowEnd n s
  | .portDown p => Sys2Proof.Machine.execPortDown p s
  | .portUp p => Sys2Proof.Machine.execPortUp p s
  | .queEnable n value => Sys2Proof.Machine.execQueEnable n value s
  | .queDisable n value => Sys2Proof.Machine.execQueDisable n value s
  | .vatRegionsWrite v w value => Sys2Proof.Machine.execVatRegionsWrite v w value s
  | .kvRegisterWrite v r value => Sys2Proof.Machine.execKvRegisterWrite v r value s
  | .counterRegisterWrite v r value => Sys2Proof.Machine.execCounterRegisterWrite v r value s
  | .glbPressWrite n value => Sys2Proof.Machine.execGlbPressWrite n value s
  | .vatPrefillWrite v value => Sys2Proof.Machine.execVatPrefillWrite v value s
  | .ladleVariantWrite n w value => Sys2Proof.Machine.execLadleVariantWrite n w value s
  | .vatFaultClear v => Sys2Proof.Machine.execVatFaultClear v s
  | .shareWeightWrite p w value => Sys2Proof.Machine.execShareWeightWrite p w value s
  | .thermCtrlWrite value => Sys2Proof.Machine.execThermCtrlWrite value s
  | .assayPolicyWrite value => Sys2Proof.Machine.execAssayPolicyWrite value s
  | .registerWrite off width value => Sys2Proof.Machine.execRegisterWrite off width value s
  | .handover => Sys2Proof.Machine.execHandover s
  | .takeover => Sys2Proof.Machine.execTakeover s
  | .pair peer peerChained => Sys2Proof.Machine.execPair peer peerChained s
  | .pwrCtrlOff value => Sys2Proof.Machine.execPwrCtrlOff value s
  | .retireNow g => Sys2Proof.Machine.execRetireNow g s
  | .ident => Sys2Proof.Machine.execIdent s
  | .smState => Sys2Proof.Machine.execSmState s
  | .readReg off => Sys2Proof.Machine.execReadReg off s
  | .events k => Sys2Proof.Machine.execEvents k s
  | .smbusReset b => Sys2Proof.Machine.execSmbusReset b s
  | .powerOff b => Sys2Proof.Machine.execPowerOff b s
  | .fwImage block hallmarkOk => Sys2Proof.Machine.execFwImage block hallmarkOk s
  | .powerGood => Sys2Proof.Machine.execPowerGood s
  | .powerFailWarn cause => Sys2Proof.Machine.execPowerFailWarn cause s
  | .resetNFalling => Sys2Proof.Machine.execResetNFalling s
  | .moduleReset => Sys2Proof.Machine.execModuleReset s
  | .shutdown => Sys2Proof.Machine.execShutdown s
  | .check wardenOk rimOk powerOk => Sys2Proof.Machine.execCheck wardenOk rimOk powerOk s
  | .rim ok failed => Sys2Proof.Machine.execRim ok failed s
  | .wake ok => Sys2Proof.Machine.execWake ok s
  | .test ok full => Sys2Proof.Machine.execTest ok full s
  | .ready ok => Sys2Proof.Machine.execReady ok s
  | .regionPowerUpStart h => Sys2Proof.Machine.execRegionPowerUpStart h s
  | .regionPowerUpEnd r => Sys2Proof.Machine.execRegionPowerUpEnd r s
  | .relock r => Sys2Proof.Machine.execRelock r s
  | .inrushAbort r => Sys2Proof.Machine.execInrushAbort r s
  | .wakeRetry r => Sys2Proof.Machine.execWakeRetry r s
  | .temperStep r => Sys2Proof.Machine.execTemperStep r s
  | .thermalWindow inlet outlet readings => Sys2Proof.Machine.execThermalWindow inlet outlet readings s
  | .stretch v => Sys2Proof.Machine.execStretch v s
  | .stretchRelease v => Sys2Proof.Machine.execStretchRelease v s
  | .quench r temp => Sys2Proof.Machine.execQuench r temp s
  | .coolantHigh inlet => Sys2Proof.Machine.execCoolantHigh inlet s
  | .coolantShutdown inlet => Sys2Proof.Machine.execCoolantShutdown inlet s
  | .halfFault h => Sys2Proof.Machine.execHalfFault h s
  | .halfRestartDone h => Sys2Proof.Machine.execHalfRestartDone h s
  | .coreRetired c => Sys2Proof.Machine.execCoreRetired c s
  | .regionRetired r => Sys2Proof.Machine.execRegionRetired r s
  | .senseBroken g pairB => Sys2Proof.Machine.execSenseBroken g pairB s
  | .supplyFault g => Sys2Proof.Machine.execSupplyFault g s
  | .converterRestart g ok => Sys2Proof.Machine.execConverterRestart g ok s
  | .bumpSuspect r drop => Sys2Proof.Machine.execBumpSuspect r drop s
  | .fuseTrip r => Sys2Proof.Machine.execFuseTrip r s
  | .channelRetired k cause => Sys2Proof.Machine.execChannelRetired k cause s
  | .linkTraining l presence peerValid peerDev peerLink peerRole => Sys2Proof.Machine.execLinkTraining l presence peerValid peerDev peerLink peerRole s
  | .cellReceive l cell => Sys2Proof.Machine.execCellReceive l cell s
  | .controlCell l info => Sys2Proof.Machine.execControlCell l info s
  | .linkReplay l => Sys2Proof.Machine.execLinkReplay l s
  | .laneRetired l cause => Sys2Proof.Machine.execLaneRetired l cause s
  | .spareLaneIn l => Sys2Proof.Machine.execSpareLaneIn l s
  | .linkRetired l => Sys2Proof.Machine.execLinkRetired l s
  | .packetForward l => Sys2Proof.Machine.execPacketForward l s
  | .linkWrite l => Sys2Proof.Machine.execLinkWrite l s
  | .linkRead l => Sys2Proof.Machine.execLinkRead l s
  | .linkData l => Sys2Proof.Machine.execLinkData l s
  | .linkAck l => Sys2Proof.Machine.execLinkAck l s
  | .load l => Sys2Proof.Machine.execLoad l s
  | .remoteTimeout c k => Sys2Proof.Machine.execRemoteTimeout c k s
  | .tagQuarantineEnd c tag => Sys2Proof.Machine.execTagQuarantineEnd c tag s
  | .mirrorStream v m => Sys2Proof.Machine.execMirrorStream v m s
  | .mirrorKv v st stage pos head bytes => Sys2Proof.Machine.execMirrorKv v st stage pos head bytes s
  | .mirrorCommit v m => Sys2Proof.Machine.execMirrorCommit v m s
  | .mirrorFill v pail streams => Sys2Proof.Machine.execMirrorFill v pail streams s
  | .mirrorLadle v cursor credits balances entries => Sys2Proof.Machine.execMirrorLadle v cursor credits balances entries s
  | .mirrorEnd v st status => Sys2Proof.Machine.execMirrorEnd v st status s
  | .twinCommitAck v st lc => Sys2Proof.Machine.execTwinCommitAck v st lc s
  | .failPacket mask => Sys2Proof.Machine.execFailPacket mask s
  | .handoverPacket mask => Sys2Proof.Machine.execHandoverPacket mask s
  | .twinSilence => Sys2Proof.Machine.execTwinSilence s
  | .ingotSegment v idx items digestOk => Sys2Proof.Machine.execIngotSegment v idx items digestOk s
  | .inputLoss => Sys2Proof.Machine.execInputLoss s
  | .inputReturned => Sys2Proof.Machine.execInputReturned s
  | .segmentTable v t sigOk => Sys2Proof.Machine.execSegmentTable v t sigOk s
  | .vatLoaded v => Sys2Proof.Machine.execVatLoaded v s
  | .mirrored => Sys2Proof.Machine.execMirrored s
  | .illegalOpcode t w => Sys2Proof.Machine.execIllegalOpcode t w s
  | .tapInstruction op cells => Sys2Proof.Machine.execTapInstruction op cells s
  | .smbusAlertResponse => Sys2Proof.Machine.execSmbusAlertResponse s

end Sys2Proof.Machine
end

