-- ==== Sys2Proof/Safety.lean ====
section
/-! DEFINITION. What a safe run is, in the terms that statements use: no command stops the module, its memories keep their
canonical form, and what a step leaves alone. -/

namespace Sys2Proof.Machine

/-- A step that goes on. -/
def Steps (s t : State) : Prop := step s = .next t
/-- A command that does not stop the module in a state. -/
def GoesOn (c : Instr) (s : State) : Prop := ∃ t, exec c s = .next t

/-- Every memory of the module is in canonical form: the local memory of each core, the memory stacks, and what came down the tree. -/
def State.memOk (s : State) : Bool := s.cores.all (fun p => memWf p.2.mem) && memWf s.stackMem && memWf s.tree

/-- A thread may issue, and its instruction has a successor in the store (R59, R185). -/
def State.ready (s : State) (t : Site) : Prop := s.canIssue t = true ∧ (s.thread t).pc ≠ 2047

/-- The state with a thread's program counter at the next index. -/
def State.onward (s : State) (t : Site) : State := s.setPc t ((s.thread t).pc + 1)

/-- The registers that a logged health event may write: the event ring, its pointer and GLB_IRQ (R329, R331). -/
def eventReg : Reg → Bool
  | .glbEvent _ _ => true
  | .glbEventWr => true
  | .glbIrq => true
  | _ => false
/-- From s to u nothing has changed but what a logged health event may: its registers, the interrupt message sent or held pending, and the
alert line's release (R329, R331). -/
structure EventsOnly (s u : State) : Prop where
  rest : { u with regs := s.regs, out := s.out, host := { u.host with msixPending := s.host.msixPending },
                  pow := { u.pow with alertReleased := s.pow.alertReleased } } = s
  regs : ∀ r, eventReg r = false → u.getReg r = s.getReg r

/-- From s to w one SIGNAL flit of a core for the store of a counter has been put behind the local input of its router, and the core counts
one signal more that has not been taken (R44, R168, R172). -/
structure SignalSent (s w : State) (c : CoreId) (v : VatId) (i : Vid) (kind gen add : Nat) : Prop where
  flit : ∀ (h : Half) (ix : Nat), s.syncMap v i = some (h, ix) → ∃ g : Flit,
    kget [] (w.router (s.posOf c)).inq (4, 1) = kget [] (s.router (s.posOf c)).inq (4, 1) ++ [g] ∧
    g.vat = v ∧ g.cls = 3 ∧ g.src = c ∧ g.head = true ∧ g.tail = true ∧ g.bytes = 16 ∧
    g.dstPx = (s.storeRouter h (storeCol ix)).px.val ∧ g.dstPy = (s.storeRouter h (storeCol ix)).py.val ∧
    g.data = leBytes 1 kind ++ leBytes 1 gen ++ leBytes 2 i ++ leBytes 2 (ix % 1024) ++ leBytes 2 add ++ leBytes 4 0 ++ leBytes 4 0
  counted : (w.core c).signalsOut = (s.core c).signalsOut + 1
  memory : ∀ d a, memGet (w.core d).mem a = memGet (s.core d).mem a
  regs : w.regs = s.regs

/-- From s to u at most the threads of one core have changed, that core's issuing with what its stop discards (R199 step 1), and the
fault reports on the way: every register, every other core, every byte of every memory and all else is as it was. -/
structure ThreadsOnly (c : CoreId) (s u : State) : Prop where
  rest : { u with cores := s.cores, reports := s.reports } = s
  cores : ∀ d, d ≠ c → u.core d = s.core d
  core : { u.core c with threads := (s.core c).threads, halted := (s.core c).halted, macWait := (s.core c).macWait,
                         dmaQ := (s.core c).dmaQ } = s.core c
  memory : ∀ d a, memGet (u.core d).mem a = memGet (s.core d).mem a

end Sys2Proof.Machine
end

