-- ==== Sys2Proof/WellFormed.lean ====
section
/-! DEFINITION. Which commands are well formed: the operands that their types leave too wide lie in the ranges that the rules give. -/

namespace Sys2Proof

/-- The KV registers (R142). -/
def VatReg.isKv : VatReg → Bool
  | .kvConf => true
  | .kvLimit => true
  | .kvQkScale => true
  | .kvListbase => true
  | .kvSkimbase => true
  | .kvRot => true
  | .kvStage _ => true
  | .kvRotFreq _ => true
  | _ => false
/-- The counter registers (R181). -/
def VatReg.isCounter : VatReg → Bool
  | .syncMap _ => true
  | .ctr _ _ => true
  | _ => false

/-- A thermal reading has four sensors (R374). -/
def ThermReading.wf (x : ThermReading) : Bool := x.sensors.length = 4 && x.offNeighbours.length = 4

/-- A command is well formed. -/
def Instr.wf : Instr → Bool
  | .illegalOpcode _ w => !inOpcodeMap (w.toNat % 256)
  | .kvRegisterWrite _ r _ => r.isKv
  | .counterRegisterWrite _ r _ => r.isCounter
  | .entryFetch _ entry => entry.length = 64
  | .fwImage block _ => block.length ≤ 255
  | .cellReceive _ c => c.length = 36
  | .thermalWindow _ _ xs => xs.all ThermReading.wf
  | .commitReport _ _ sampled _ => 1 ≤ sampled.length && sampled.length ≤ 4
  | .memEccfatal _ addr => addr < 0x310000
  | .test _ xs => xs.all (fun r => r.testedBy ≤ 4 && r.failedBy ≤ r.testedBy && r.workingNeighbours ≤ 4)
  | _ => true

end Sys2Proof
end

