-- ==== Sys2Proof/Certificates/Slice0/Obligations.lean ====
section
/-! DEFINITION. The statements for the provers. -/

open Sys2Proof Sys2Proof.Machine

/-! ## The machine -/

/-- A step takes the command at the front of the queue and runs it on the state with the rest of the queue; with no command waiting
nothing happens (log entry 6). -/
def Obligations.StepRunsFrontCommand : Prop :=
  (∀ (c : Instr) (cs : List Instr) (s : State), s.pending = c :: cs → step s = exec c { s with pending := cs }) ∧
  (∀ s : State, s.pending = [] → step s = .next s)

/-! ## Scalar instructions and branches (R201, R204, R205) -/

/-- R204: the arithmetic and logic instructions write s[D] from s[A] and y, a shift ignoring bits [63:6] of y, and the thread goes on to the next
index; nothing else changes. -/
def Obligations.ScalarResult : Prop :=
  ∀ (s : State) (t : Site) (f : FmtA), s.ready t → f.func = 0 → (f.i = 1 → f.b = 0) → (f.i = 0 → f.imm = 0) →
    let a := (s.thread t).sreg f.a
    let y := if f.i = 1 then f.imm.signExtend 64 else (s.thread t).sreg f.b
    let n := (y.setWidth 6).toNat
    let writes (w : Word64) : Result := .next ((s.onward t).setS t f.d w)
    exec (.add t f) s = writes (BitVec.ofInt 64 (a.toInt + y.toInt)) ∧
    exec (.sub t f) s = writes (BitVec.ofInt 64 (a.toInt - y.toInt)) ∧
    exec (.mul t f) s = writes (BitVec.ofNat 64 (a.toNat * y.toNat)) ∧
    exec (.mulhu t f) s = writes (BitVec.ofNat 64 (a.toNat * y.toNat / 2 ^ 64)) ∧
    exec (.min t f) s = writes (if a.toInt ≤ y.toInt then a else y) ∧
    exec (.max t f) s = writes (if a.toInt ≤ y.toInt then y else a) ∧
    exec (.and t f) s = writes (a &&& y) ∧
    exec (.or t f) s = writes (a ||| y) ∧
    exec (.xor t f) s = writes (a ^^^ y) ∧
    exec (.shl t f) s = writes (BitVec.ofNat 64 (a.toNat * 2 ^ n)) ∧
    exec (.shr t f) s = writes (BitVec.ofNat 64 (a.toNat / 2 ^ n)) ∧
    exec (.sra t f) s = writes (BitVec.ofInt 64 (a.toInt / 2 ^ n))

/-- R191, R204, R205: CMP compares by the condition code in FUNC; LI and LIH build constants; RDSTAMP writes the tick and the cycle count of one stamp; the
all-zero NOP only goes on; a branch taken goes to PC + TARGET, one not taken goes on in sequence, and JR goes to the index s[A]. -/
def Obligations.CompareConstantsBranch : Prop :=
  (∀ (s : State) (t : Site) (f : FmtA) (cyc : BitVec 24), s.ready t →
    let a := (s.thread t).sreg f.a
    let y := if f.i = 1 then f.imm.signExtend 64 else (s.thread t).sreg f.b
    let holds : Prop :=
      match f.func.toNat with
      | 0 => True
      | 1 => a = y
      | 2 => a ≠ y
      | 3 => a.toInt < y.toInt
      | 4 => y.toInt ≤ a.toInt
      | 5 => a.toNat < y.toNat
      | _ => y.toNat ≤ a.toNat
    ((f.i = 1 → f.b = 0) → (f.i = 0 → f.imm = 0) → f.func.toNat ≤ 6 →
      ∃ w : Word64, exec (.cmp t f) s = .next ((s.onward t).setS t f.d w) ∧ (holds → w = 1) ∧ (¬ holds → w = 0)) ∧
    (f.a = 0 → f.b = 0 → f.i = 0 → f.func = 0 →
      exec (.li t f) s = .next ((s.onward t).setS t f.d (f.imm.signExtend 64)) ∧
      exec (.lih t f) s = .next ((s.onward t).setS t f.d
        (BitVec.ofNat 64 (f.imm.toNat * 2 ^ 32 + ((s.thread t).sreg f.d).toNat % 2 ^ 32))) ∧
      (f.imm = 0 → f.d ≠ 31 →
        exec (.rdstamp t f cyc) s = .next (((s.onward t).setS t f.d (BitVec.ofNat 64 (s.tickOf (halfOf (regionOf t.core))))).setS t (f.d + 1)
          (cyc.setWidth 64)))) ∧
    exec (.nop t {}) s = .next (s.onward t)) ∧
  (∀ (s : State) (t : Site) (f : FmtB), s.canIssue t = true → f.thread = 0 → f.rsv = 0 →
    let a := (s.thread t).sreg f.a
    let b := (s.thread t).sreg f.b
    let pc := (s.thread t).pc
    let holds : Prop :=
      match f.cond.toNat with
      | 0 => True
      | 1 => a = b
      | 2 => a ≠ b
      | 3 => a.toInt < b.toInt
      | 4 => b.toInt ≤ a.toInt
      | 5 => a.toNat < b.toNat
      | _ => b.toNat ≤ a.toNat
    (f.cond ≠ 7 → (f.cond = 0 → f.a = 0 ∧ f.b = 0) →
      (holds → 0 ≤ (pc : Int) + f.target.toInt → (pc : Int) + f.target.toInt ≤ 2047 →
        exec (.br t f) s = .next (s.setPc t ((pc : Int) + f.target.toInt).toNat)) ∧
      (holds → ((pc : Int) + f.target.toInt < 0 ∨ 2047 < (pc : Int) + f.target.toInt) →
        exec (.br t f) s = .next (s.threadFault t .address)) ∧
      (¬ holds → pc ≠ 2047 → exec (.br t f) s = .next (s.onward t))) ∧
    (f.b = 0 → f.cond = 0 → f.target = 0 →
      (a.toNat < 2048 → exec (.jr t f) s = .next (s.setPc t a.toNat)) ∧
      (2048 ≤ a.toNat → exec (.jr t f) s = .next (s.threadFault t .address))))

/-- What the scalar instructions and the branches leave alone: every scalar register but s[D] (and s[D + 1] for RDSTAMP), every vector
register, every other thread, every register of BAR0, every special and control word of every core, and every byte of memory. -/
def Obligations.ScalarFrame : Prop :=
  ∀ (s u : State) (t : Site) (f : FmtA) (g : FmtB) (cyc : BitVec 24) (i : Instr),
    i ∈ [Instr.nop t f, .add t f, .sub t f, .and t f, .or t f, .xor t f, .shl t f, .shr t f, .sra t f, .cmp t f, .min t f, .max t f,
      .mul t f, .mulhu t f, .li t f, .lih t f, .rdstamp t f cyc, .br t g, .jr t g] → exec i s = .next u →
    ThreadsOnly t.core s u ∧ (∀ x, x ≠ t → u.thread x = s.thread x) ∧
    (∀ r, r ≠ f.d → (r = f.d + 1 → i ≠ .rdstamp t f cyc) → (u.thread t).sreg r = (s.thread t).sreg r) ∧
    (i ∈ [Instr.nop t f, .br t g, .jr t g] → ∀ r, (u.thread t).sreg r = (s.thread t).sreg r) ∧
    (∀ r, (u.thread t).vreg r = (s.thread t).vreg r) ∧
    (u.thread t).status = (s.thread t).status

/-- R198: whatever issue faults an instruction meets, the status reported is the first of ILLEGAL, FORMAT, COUNTER, EMPTY, OVERSIZE, ADDRESS and PROTECT
that applies. Of the scalar instructions: a field that is not used and not zero faults with ILLEGAL, a thread that would leave the store by
sequential flow faults with ADDRESS; the thread writes nothing and its core stops issuing. -/
def Obligations.IssueFaultOrder : Prop :=
  (∀ (s : State) (t : Site) (checks : List (Bool × Status)) (eff : State → State), s.canIssue t = true →
    let order : List Status := [.illegal, .format, .counter, .empty, .oversize, .address, .protect]
    (∀ p ∈ checks, p.2 ∈ order) →
    (∀ st, order.find? (fun x => decide ((true, x) ∈ checks)) = some st → issue s t false false checks eff = .next (s.threadFault t st)) ∧
    ((∀ p ∈ checks, p.1 = false) → issue s t false false checks eff = .next (eff s))) ∧
  (∀ (s : State) (t : Site) (f : FmtA), s.canIssue t = true →
    let stop (st : Status) : Result := .next (s.threadFault t st)
    (((f.i = 1 ∧ f.b ≠ 0) ∨ (f.i = 0 ∧ f.imm ≠ 0) ∨ f.func ≠ 0) →
      exec (.add t f) s = stop .illegal ∧ exec (.mulhu t f) s = stop .illegal ∧ exec (.sra t f) s = stop .illegal) ∧
    (7 ≤ f.func.toNat → exec (.cmp t f) s = stop .illegal) ∧
    (f.d = 31 → ∀ cyc, exec (.rdstamp t f cyc) s = stop .illegal) ∧
    (f ≠ {} → exec (.nop t f) s = stop .illegal) ∧
    ((s.thread t).pc = 2047 → exec (.nop t {}) s = stop .address ∧
      (f.func = 0 → (f.i = 1 → f.b = 0) → (f.i = 0 → f.imm = 0) → exec (.add t f) s = stop .address)) ∧
    (∀ st, ((s.threadFault t st).core t.core).halted = true ∧ ((s.threadFault t st).core t.core).macWait = none ∧
      ((s.threadFault t st).core t.core).dmaQ = [] ∧ (s.threadFault t st).thread t = s.thread t))

/-! ## Loads and stores (R57, R64, R65, R77, R189, R206, R227) -/

/-- R189, R206, R227: what LD, VLD and POSLD write. An access that R57 and R189 let through, that nothing holds and that meets no
double-bit error delivers the bytes at the effective address, counts corrected errors, and goes on; an address of 2^22 or more, or one
that is not aligned, faults with ADDRESS. -/
def Obligations.LoadResult : Prop :=
  ∀ (s : State) (t : Site) (f : FmtM), s.ready t → f.rsv1 = 0 → f.rsv2 = 0 → f.acc = 0 →
    let k := s.core t.core
    let a := ((s.thread t).sreg f.base + f.offset.signExtend 64).toNat
    let n := 2 ^ f.width.toNat
    ((f.width = 3 → f.sign = 0) → memHold k t.thread false a n = false →
      (badLoad k false a n = false → k.doubleAt a n = false →
        ∃ w : Word64, exec (.ld t f) s = .next (((s.onward t).readCounted t.core a n).setS t f.d w) ∧
          (f.sign = 0 → w.toNat = ofLe (s.readLocal t.core a n)) ∧
          (f.sign = 1 → w.toInt = Int.bmod (ofLe (s.readLocal t.core a n)) (2 ^ (8 * n)))) ∧
      ((2 ^ 22 ≤ a ∨ a % n ≠ 0) → exec (.ld t f) s = .next (s.threadFault t .address))) ∧
    (f.d.toNat < 8 → f.width = 2 → f.sign = 0 → memHold k t.thread false a 256 = false →
      (badLoad k true a 256 = false → k.doubleAt a 256 = false →
        exec (.vld t f) s = .next (((s.onward t).readCounted t.core a 256).setV t (f.d.setWidth 3) (toWords (memBytes k.mem a 256)))) ∧
      ((2 ^ 22 ≤ a ∨ a % 4 ≠ 0) → exec (.vld t f) s = .next (s.threadFault t .address))) ∧
    (f.width = 3 → f.d = 0 → f.sign = 0 → k.heldByMove t.thread false a 8 = false →
      (k.inSpm a 8 = true → a % 8 = 0 → k.doubleAt a 8 = false →
        ∃ u, exec (.posld t f) s = .next u ∧ ∀ j : Fin 4,
          (kget 0 (u.core t.core).posRegs j).toNat = (memGet k.mem (a + 2 * j)).toNat + 256 * (memGet k.mem (a + 2 * j + 1)).toNat) ∧
      ((k.inSpm a 8 = false ∨ a % 8 ≠ 0) → exec (.posld t f) s = .next (s.threadFault t .address)))

/-- R189: where a load may read: any width in the powered scratchpad, 4 or 8 bytes or a vector in cream, 8 bytes of a control word, 4 bytes of
a tile plane, a collapsed window or an activation buffer; an access that does not lie wholly inside its range does not pass. -/
def Obligations.LoadSpaces : Prop :=
  ∀ (k : Core) (a n : Nat), n ∈ [1, 2, 4, 8] → k.groups ∈ [1, 2, 4, 8] → a % n = 0 →
    let inside (lo size : Nat) : Prop := lo ≤ a ∧ a + n ≤ lo + size
    (badLoad k false a n = false ↔
      inside 0x200000 (49152 * k.groups) ∨ (4 ≤ n ∧ inside 0 0x180000) ∨ (n = 8 ∧ inside 0x3F0000 0x20) ∨
      (n = 4 ∧ (inside 0x300000 0x10000 ∨ inside 0x310000 0x8000 ∨ inside 0x320000 0x2100 ∨ inside 0x324000 0x2100)))

/-- R64, R65, R67, R77, R85, R206: what ST and VST write. A plain store to scratchpad writes the low bytes of s[D], or the 64 words of v[D]; an
accumulate adds into each word, in FP32 or modulo 2^32; a store to a collapsed window sets the sum and clears the error; a store to the gate word
faults with PROTECT, one of another width than 32 bits with ACC 1 or 2 with FORMAT. -/
def Obligations.StoreResult : Prop :=
  ∀ (s : State) (t : Site) (f : FmtM), s.ready t → s.memOk = true → f.rsv1 = 0 → f.rsv2 = 0 → f.sign = 0 →
    let k := s.core t.core
    let a := ((s.thread t).sreg f.base + f.offset.signExtend 64).toNat
    let n := 2 ^ f.width.toNat
    let d := (s.thread t).sreg f.d
    (memHold k t.thread true a n = false → k.doubleAt a n = false →
      (f.acc = 0 → k.inSpm a n = true → a % n = 0 →
        ∃ u, exec (.st t f) s = .next u ∧ (u.thread t).pc = (s.thread t).pc + 1 ∧
          ∀ j, j < n → (memGet (u.core t.core).mem (a + j)).toNat = d.toNat / 256 ^ j % 256) ∧
      (f.width = 2 → k.inSpm a 4 = true → a % 4 = 0 →
        (f.acc = 1 → ∃ u, exec (.st t f) s = .next u ∧ (u.core t.core).word a = add32 (k.word a) (d.setWidth 32)) ∧
        (f.acc = 2 → ∃ u, exec (.st t f) s = .next u ∧ (u.core t.core).word a = k.word a + d.setWidth 32)) ∧
      (∀ b, f.acc = 0 → f.width = 2 → k.spaceOf a 4 = some (.window b) → a % 4 = 0 →
        ∃ u, exec (.st t f) s = .next u ∧ (u.core t.core).pair b ((a - windowBase b) / 4) = (d.setWidth 32, 0)) ∧
      (f.acc = 0 → f.width = 3 → a = 0x3F0010 → exec (.st t f) s = .next (s.threadFault t .protect)) ∧
      (f.acc = 0 → f.width = 3 → a = 0x3F0018 →
        ∃ u, exec (.st t f) s = .next u ∧ (u.core t.core).layerTag = d.setWidth 12 ∧ (u.core t.core).causeMask = 0) ∧
      ((f.acc = 1 ∨ f.acc = 2) → f.width ≠ 2 → exec (.st t f) s = .next (s.threadFault t .format))) ∧
    (f.d.toNat < 8 → f.width = 2 → memHold k t.thread true a 256 = false → k.doubleAt a 256 = false → k.inSpm a 256 = true → a % 4 = 0 →
      let v := (s.thread t).vreg (f.d.setWidth 3)
      (f.acc = 0 → ∃ u, exec (.vst t f) s = .next u ∧ ∀ j, j < 64 → (u.core t.core).word (a + 4 * j) = lane v j) ∧
      (f.acc = 1 → ∃ u, exec (.vst t f) s = .next u ∧ ∀ j, j < 64 →
        (u.core t.core).word (a + 4 * j) = add32 (k.word (a + 4 * j)) (lane v j)) ∧
      (f.acc = 2 → ∃ u, exec (.vst t f) s = .next u ∧ ∀ j, j < 64 →
        (u.core t.core).word (a + 4 * j) = k.word (a + 4 * j) + lane v j))

/-- What loads and stores leave alone. A load: every scalar register but s[D] (LD), every vector register but v[D] (VLD), every other thread and core, every
register of BAR0 but those that a logged event writes when the access meets a double-bit error, every control word but the error flag and count (R85), the
position registers but for POSLD, and every byte of memory. A store: every scalar and vector register, every other thread and core, every register of BAR0 but
the same, the position registers, and every byte of memory outside the bytes at the effective address; a store to a collapsed window touches its element's sum
and error words only. -/
def Obligations.LoadStoreFrame : Prop :=
  (∀ (s u : State) (t : Site) (f : FmtM) (i : Instr), i ∈ [Instr.ld t f, .vld t f, .posld t f] → exec i s = .next u →
    let a := ((s.thread t).sreg f.base + f.offset.signExtend 64).toNat
    let n := if i = .vld t f then 256 else if i = .posld t f then 8 else 2 ^ f.width.toNat
    (∀ c a, memGet (u.core c).mem a = memGet (s.core c).mem a) ∧
    EventsOnly s { u with cores := s.cores, reports := s.reports } ∧
    ((s.core t.core).doubleAt a n = false → { u with cores := s.cores, reports := s.reports } = s) ∧
    (∀ d, d ≠ t.core → u.core d = s.core d) ∧
    (∀ x, x ≠ t → u.thread x = s.thread x) ∧
    (∀ r, (r = f.d → i ≠ .ld t f) → (u.thread t).sreg r = (s.thread t).sreg r) ∧
    (∀ r, (r = f.d.setWidth 3 → i ≠ .vld t f) → (u.thread t).vreg r = (s.thread t).vreg r) ∧
    (i ≠ .posld t f → (u.core t.core).posRegs = (s.core t.core).posRegs) ∧
    (u.core t.core).gate = (s.core t.core).gate ∧ (u.core t.core).layerTag = (s.core t.core).layerTag ∧
    (u.core t.core).spmWrap = (s.core t.core).spmWrap ∧ (u.core t.core).tileAWrap = (s.core t.core).tileAWrap ∧
    (u.core t.core).tileBWrap = (s.core t.core).tileBWrap ∧ (u.core t.core).solderHold = (s.core t.core).solderHold ∧
    (u.core t.core).mirrors = (s.core t.core).mirrors) ∧
  (∀ (s u : State) (t : Site) (f : FmtM) (i : Instr), s.memOk = true → i ∈ [Instr.st t f, .vst t f] → exec i s = .next u →
    let a := ((s.thread t).sreg f.base + f.offset.signExtend 64).toNat
    let n := if i = .vst t f then 256 else 2 ^ f.width.toNat
    (∀ x, (x < a ∨ a + n ≤ x) → (∀ b : Bool, (s.core t.core).spaceOf a n ≠ some (.window b)) →
      memGet (u.core t.core).mem x = memGet (s.core t.core).mem x) ∧
    (∀ (b : Bool) (x : Nat), (s.core t.core).spaceOf a n = some (.window b) →
      let e := tileBase b + 4 * ((a - windowBase b) / 4)
      (x < e ∨ e + 4 ≤ x) → (x < e + 0x4000 ∨ e + 0x4004 ≤ x) → memGet (u.core t.core).mem x = memGet (s.core t.core).mem x) ∧
    EventsOnly s { u with cores := s.cores, reports := s.reports, recipes := s.recipes } ∧
    ((s.core t.core).doubleAt a n = false → { u with cores := s.cores, reports := s.reports, recipes := s.recipes } = s) ∧
    (∀ d, d ≠ t.core → u.core d = s.core d) ∧
    (∀ x, x ≠ t → u.thread x = s.thread x) ∧
    (∀ r, (u.thread t).sreg r = (s.thread t).sreg r) ∧ (∀ r, (u.thread t).vreg r = (s.thread t).vreg r) ∧
    (u.core t.core).posRegs = (s.core t.core).posRegs ∧ (u.core t.core).gate = (s.core t.core).gate ∧
    (u.core t.core).tileAWrap.toNat ≤ (s.core t.core).tileAWrap.toNat ∧ (u.core t.core).tileBWrap.toNat ≤ (s.core t.core).tileBWrap.toNat ∧
    (u.core t.core).solderHold = (s.core t.core).solderHold ∧ (u.core t.core).mirrors = (s.core t.core).mirrors)

/-! ## Vector instructions (R103, R105, R107, R208 to R215) -/

/-- R208: the short vector instructions over lanes: in FP32 rounded once, in INT32 modulo 2^32; SB = 1 broadcasts s[S][31:0];
any other FMT faults with FORMAT. -/
def Obligations.VectorLaneResult : Prop :=
  ∀ (s : State) (t : Site) (f : FmtV), s.ready t → f.rsv1 = 0 → f.rsv2 = 0 → (f.sb = 1 → f.vb = 0) → (f.sb = 0 → f.s = 0) →
    f.func = 0 →
    let h := s.thread t
    let a (i : Nat) := lane (h.vreg f.va) i
    let b (i : Nat) := if f.sb = 1 then (h.sreg f.s).setWidth 32 else lane (h.vreg f.vb) i
    let c (i : Nat) := lane (h.vreg f.vc) i
    let writes (x : Instr) (fp int : Nat → Word32) : Prop :=
      (f.fmt = 0xD ∨ f.fmt = 0xE → ∃ w, exec x s = .next ((s.onward t).setV t f.vd w) ∧ w.length = 64 ∧
        ∀ i, i < 64 → lane w i = if f.fmt = 0xD then fp i else int i) ∧
      (f.fmt ≠ 0xD → f.fmt ≠ 0xE → exec x s = .next (s.threadFault t .format))
    (f.vc = 0 →
      writes (.vadd t f) (fun i => add32 (a i) (b i)) (fun i => a i + b i) ∧
      writes (.vsub t f) (fun i => sub32 (a i) (b i)) (fun i => a i - b i) ∧
      writes (.vmul t f) (fun i => mul32 (a i) (b i)) (fun i => a i * b i) ∧
      writes (.vmin t f) (fun i => min32 (a i) (b i)) (fun i => if (a i).toInt ≤ (b i).toInt then a i else b i) ∧
      writes (.vmax t f) (fun i => max32 (a i) (b i)) (fun i => if (a i).toInt ≤ (b i).toInt then b i else a i)) ∧
    writes (.vfma t f) (fun i => fma32 (a i) (b i) (c i)) (fun i => a i * b i + c i) ∧
    writes (.vsel t f) (fun i => if c i ≠ 0 then a i else b i) (fun i => if c i ≠ 0 then a i else b i)

/-- R208, R209, R103: VCMP by its condition code (0 for a NaN operand), VBCAST, VEXT, and VCVT, whose narrowing packs from the least
significant bits and whose widening reads 64 packed elements. -/
def Obligations.VectorConvertResult : Prop :=
  ∀ (s : State) (t : Site) (f : FmtV), s.ready t → f.rsv1 = 0 → f.rsv2 = 0 →
    let h := s.thread t
    let a (i : Nat) := lane (h.vreg f.va) i
    let b (i : Nat) := if f.sb = 1 then (h.sreg f.s).setWidth 32 else lane (h.vreg f.vb) i
    let writes (x : Instr) (w : Nat → Word32) : Prop :=
      ∃ l, exec x s = .next ((s.onward t).setV t f.vd l) ∧ ∀ i, i < 64 → lane l i = w i
    (f.fmt = 0xE → f.vc = 0 → (f.sb = 1 → f.vb = 0) → (f.sb = 0 → f.s = 0) →
      (f.func = 1 → writes (.vcmp t f) (fun i => if a i = b i then 1 else 0)) ∧
      (f.func = 2 → writes (.vcmp t f) (fun i => if a i = b i then 0 else 1)) ∧
      (f.func = 3 → writes (.vcmp t f) (fun i => if (a i).toInt < (b i).toInt then 1 else 0)) ∧
      (f.func = 4 → writes (.vcmp t f) (fun i => if (a i).toInt < (b i).toInt then 0 else 1)) ∧
      (f.func = 5 → writes (.vcmp t f) (fun i => if (a i).toNat < (b i).toNat then 1 else 0)) ∧
      (f.func = 6 → writes (.vcmp t f) (fun i => if (a i).toNat < (b i).toNat then 0 else 1))) ∧
    (f.fmt = 0xD → f.vc = 0 → (f.sb = 1 → f.vb = 0) → (f.sb = 0 → f.s = 0) →
      (1 ≤ f.func.toNat → f.func.toNat ≤ 4 →
        ∃ l, exec (.vcmp t f) s = .next ((s.onward t).setV t f.vd l) ∧ ∀ i, i < 64 →
          ((dec32 (a i)).isNan = true ∨ (dec32 (b i)).isNan = true → lane l i = 0) ∧
          (∀ o, fpCmp (dec32 (a i)) (dec32 (b i)) = some o →
            (lane l i = 1 ↔ (f.func = 1 ∧ o = .eq) ∨ (f.func = 2 ∧ o ≠ .eq) ∨ (f.func = 3 ∧ o = .lt) ∨ (f.func = 4 ∧ o ≠ .lt)))) ∧
      (4 < f.func.toNat → exec (.vcmp t f) s = .next (s.threadFault t .illegal))) ∧
    (f.va = 0 → f.vb = 0 → f.vc = 0 → f.sb = 0 → f.func = 0 → f.fmt = 0xD ∨ f.fmt = 0xE →
      writes (.vbcast t f) (fun _ => (h.sreg f.s).setWidth 32)) ∧
    (f.vd = 0 → f.vb = 0 → f.vc = 0 → f.sb = 0 → f.func.toNat < 64 →
      (f.fmt = 0xD → exec (.vext t f) s = .next ((s.onward t).setS t f.s ((a f.func.toNat).setWidth 64))) ∧
      (f.fmt = 0xE → exec (.vext t f) s = .next ((s.onward t).setS t f.s ((a f.func.toNat).signExtend 64)))) ∧
    (∀ bits : Nat, (bits, f.fmt) ∈ [(16, 0xB), (16, 0xC), (8, 0x7), (8, 0x8), (8, 0xA), (32, 0xE#4)] → f.vc = 0 →
      let per := 32 / bits
      (f.func = 0 → (bits = 32 → f.vb = 0 ∧ f.sb = 0 ∧ f.s = 0) → (f.sb = 1 → f.vb = 0) → (f.sb = 0 → f.s = 0) →
        writes (.vcvt t f) (fun i =>
          let x (j : Nat) := if bits = 32 ∨ i < 2 * bits then a (per * i + j) else b (per * (i - 2 * bits) + j)
          if bits < 32 ∧ 4 * bits ≤ i then 0
          else w32 (((List.range per).map (fun j => narrow f.fmt.toNat (x j) * 2 ^ (bits * j))).sum))) ∧
      (∀ q, f.func.toNat = 1 + 4 * q → 64 * q < 2048 / bits → f.vb = 0 → f.sb = 0 → f.s = 0 →
        writes (.vcvt t f) (fun i =>
          let e := 64 * q + i
          widen f.fmt.toNat ((a (e / per)).toNat / 2 ^ (bits * (e % per)) % 2 ^ bits)))) ∧
    (f.fmt ∉ [0x7, 0x8, 0xA, 0xB, 0xC, 0xE#4] → f.vc = 0 → f.func = 0 → f.vb = 0 → f.sb = 0 → f.s = 0 →
      exec (.vcvt t f) s = .next (s.threadFault t .format))

/-- R105, R107, R210 to R215: the long vector instructions. VEXP2, VRCP and VRSQRT apply their function to every lane; VSUM adds the lanes by the
pairwise tree; VMAXR takes the greatest; VPACK writes two blocks' elements and scales and leaves the other bytes; VCOMB combines pairs lane by lane;
VTOPP compares the running sums with p; VDRAW draws from the seed and the counter. -/
def Obligations.VectorLongResult : Prop :=
  ∀ (s : State) (t : Site) (f : FmtV), s.ready t → f.rsv1 = 0 → f.rsv2 = 0 → f.sb = 0 →
    let h := s.thread t
    let a (i : Nat) := lane (h.vreg f.va) i
    let b (i : Nat) := lane (h.vreg f.vb) i
    let u := s.onward t
    let un (x : Instr) (op : Word32 → Word32) : Prop :=
      ∃ w, exec x s = .next (u.setV t f.vd w) ∧ ∀ i, i < 64 → lane w i = op (a i)
    (f.fmt = 0xD → f.vb = 0 → f.vc = 0 → f.s = 0 → f.func = 0 →
      un (.vexp2 t f) exp2w ∧ un (.vrcp t f) rcpw ∧ un (.vrsqrt t f) rsqrtw) ∧
    (f.vd = 0 → f.vb = 0 → f.vc = 0 → f.func = 0 →
      (f.fmt = 0xE → ∃ w m : Word32,
        exec (.vsum t f) s = .next (u.setS t f.s (w.signExtend 64)) ∧
        w.toNat = (((List.range 64).map (fun i => (a i).toNat)).sum) % 2 ^ 32 ∧
        exec (.vmaxr t f) s = .next (u.setS t f.s (m.signExtend 64)) ∧
        (∃ i, i < 64 ∧ m = a i) ∧ ∀ i, i < 64 → (a i).toInt ≤ m.toInt) ∧
      (f.fmt = 0xD →
        exec (.vsum t f) s = .next (u.setS t f.s (((pairTree add32 6 ((List.range 64).map a)).headD 0).setWidth 64)) ∧
        exec (.vmaxr t f) s = .next (u.setS t f.s (((pairTree max32 6 ((List.range 64).map a)).headD 0).setWidth 64)) ∧
        ((∀ i, i < 64 → (dec32 (a i)).isNan = true) → exec (.vmaxr t f) s = .next (u.setS t f.s 0x7FC00000)))) ∧
    (f.vb = 0 → f.s = 0 → f.func.toNat < 32 → f.vc ≠ f.vd → f.fmt = 0x3 ∨ f.fmt = 0x4 →
      ∃ w x, exec (.vpack t f) s = .next ((u.setV t f.vd w).setV t f.vc x) ∧
        let block (j : Nat) := packBlock (f.fmt = 0x4) ((List.range 32).map (fun i => a (32 * j + i)))
        let n := f.func.toNat
        let byte (v : List Word32) (k : Nat) : Nat := (lane v (k / 4)).toNat / 2 ^ (8 * (k % 4)) % 256
        ∀ k, k < 256 →
          byte w k = (if 64 * (n % 4) ≤ k ∧ k < 64 * (n % 4) + 64 then
              let e := k - 64 * (n % 4)
              (block (e / 32)).2.getD (e % 32) 0 % 256 else byte (h.vreg f.vd) k) ∧
          byte x k = (if k = 2 * n then (block 0).1 % 256 else if k = 2 * n + 1 then (block 1).1 % 256 else byte (h.vreg f.vc) k)) ∧
    (f.fmt = 0xD → f.vc = 0 → f.s = 0 → f.func = 0 → f.vd.toNat % 2 = 0 → f.va.toNat % 2 = 0 → f.vb.toNat % 2 = 0 →
      ∃ w x, exec (.vcomb t f) s = .next ((u.setV t f.vd w).setV t (f.vd + 1) x) ∧ ∀ i, i < 64 →
        (lane w i, lane x i) = pairCombine (a i, lane (h.vreg (f.va + 1)) i) (b i, lane (h.vreg (f.vb + 1)) i)) ∧
    (f.fmt = 0xD → f.func = 0 → ∃ w x, exec (.vtopp t f) s = .next ((u.setV t f.vd w).setV t f.vc x) ∧
      ∃ c : Nat → Word32, c 0 = b 0 ∧ (∀ i, i < 64 → c (i + 1) = add32 (c i) (a i)) ∧
        (∀ i, i < 64 → lane w i = if cond32 3 (c i) ((h.sreg f.s).setWidth 32) = true then 1 else 0) ∧ lane x 0 = c 64 ∧
        (f.vc ≠ f.vd → ∀ i, 1 ≤ i → i < 64 → lane x i = lane (h.vreg f.vc) i)) ∧
    (f.fmt = 0xD → f.va = 0 → f.vb = 0 → f.vc = 0 → f.func = 0 →
      (f.s ≠ 31 → ∃ w, exec (.vdraw t f) s = .next (u.setV t f.vd w) ∧ ∀ i, i < 64 →
        lane w i = draw (h.sreg f.s) (h.sreg (f.s + 1) + BitVec.ofNat 64 i)) ∧
      (f.s = 31 → exec (.vdraw t f) s = .next (s.threadFault t .illegal)))

/-- R213: VTOPK sorts the 128 candidates: what it writes is a rearrangement of them, NaN written as the canonical NaN, in descending order, a lower
identifier first among equal values; an odd register, or VD = VC, faults with ILLEGAL. -/
def Obligations.TopkSorts : Prop :=
  (∀ (s : State) (t : Site) (f : FmtV), s.ready t → f.rsv1 = 0 → f.rsv2 = 0 → f.sb = 0 → f.s = 0 → f.func = 0 → f.fmt = 0xD →
    f.vd.toNat % 2 = 0 → f.va.toNat % 2 = 0 → f.vb.toNat % 2 = 0 → f.vc.toNat % 2 = 0 → f.vd ≠ f.vc →
    let h := s.thread t
    let cand (r : BitVec 3) := (List.range 64).map (fun i =>
      (if (dec32 (lane (h.vreg r) i)).isNan = true then nan32 else lane (h.vreg r) i, lane (h.vreg (r + 1)) i))
    ∃ hi lo : List (Word32 × Word32),
      exec (.vtopk t f) s = .next (((((s.onward t).setV t f.vd (hi.map Prod.fst)).setV t (f.vd + 1) (hi.map Prod.snd)).setV t f.vc
        (lo.map Prod.fst)).setV t (f.vc + 1) (lo.map Prod.snd)) ∧
      hi.length = 64 ∧ lo.length = 64 ∧ (hi ++ lo).Perm (cand f.va ++ cand f.vb) ∧
      (hi ++ lo).Pairwise (fun p q =>
        ((dec32 p.1).isNan = true → (dec32 q.1).isNan = true) ∧
        ((dec32 p.1).isNan = false → (dec32 q.1).isNan = false → fpBelow (dec32 p.1) (dec32 q.1) = false) ∧
        (((dec32 p.1).isNan = true ∧ (dec32 q.1).isNan = true) ∨
          ((dec32 p.1).isNan = false ∧ (dec32 q.1).isNan = false ∧ fpBelow (dec32 q.1) (dec32 p.1) = false) → p.2.toNat ≤ q.2.toNat))) ∧
  (∀ (s : State) (t : Site) (f : FmtV), s.canIssue t = true →
    (f.vd.toNat % 2 = 1 ∨ f.va.toNat % 2 = 1 ∨ f.vb.toNat % 2 = 1 ∨ f.vc.toNat % 2 = 1 ∨ f.vd = f.vc) →
    exec (.vtopk t f) s = .next (s.threadFault t .illegal))

/-- R87, R102, R104, R209: a finite or infinite FP32 word decodes and encodes to itself; sums and products do not depend on the order of the
operands; every NaN result is the canonical NaN; and widening a packed element and narrowing it again gives it back. -/
def Obligations.FloatFormats : Prop :=
  (∀ w : Word32, (dec32 w).isNan = false → enc32 (dec32 w) = w) ∧
  (∀ a b : Word32, add32 a b = add32 b a ∧ mul32 a b = mul32 b a) ∧
  (∀ a b c : Word32, (dec32 a).isNan = true → add32 a b = 0x7FC00000 ∧ mul32 a b = 0x7FC00000 ∧ sub32 a b = 0x7FC00000 ∧
    sub32 b a = 0x7FC00000 ∧ fma32 a b c = 0x7FC00000 ∧ fma32 b c a = 0x7FC00000) ∧
  (∀ v : Nat, v < 2 ^ 16 → (fpDecode fmtBf16 v).isNan = false → narrow 0xB (widen 0xB v) = v) ∧
  (∀ v : Nat, v < 2 ^ 16 → (fpDecode fmtFp16 v).isNan = false → narrow 0xC (widen 0xC v) = v) ∧
  (∀ v : Nat, v < 2 ^ 8 → (fpDecode fmtE4m3 v).isNan = false → narrow 0x7 (widen 0x7 v) = v) ∧
  (∀ v : Nat, v < 2 ^ 8 → (fpDecode fmtE5m2 v).isNan = false → narrow 0x8 (widen 0x8 v) = v) ∧
  (∀ v : Nat, v < 2 ^ 8 → narrow 0xA (widen 0xA v) = v)

/-- What a vector instruction leaves alone: every register of BAR0, every other core and thread, every byte of memory, the scalar registers but s[S]
for VEXT, VSUM and VMAXR, and the vector registers but its destinations. -/
def Obligations.VectorFrame : Prop :=
  ∀ (s u : State) (t : Site) (f : FmtV) (i : Instr),
    i ∈ [Instr.vadd t f, .vsub t f, .vmul t f, .vfma t f, .vmin t f, .vmax t f, .vcmp t f, .vsel t f, .vcvt t f, .vbcast t f, .vext t f, .vexp2 t f,
      .vrcp t f, .vrsqrt t f, .vsum t f, .vmaxr t f, .vpack t f, .vcomb t f, .vtopk t f, .vtopp t f, .vdraw t f] → exec i s = .next u →
    ThreadsOnly t.core s u ∧ (∀ x, x ≠ t → u.thread x = s.thread x) ∧
    (∀ r, (r = f.s → i ∉ [Instr.vext t f, .vsum t f, .vmaxr t f]) → (u.thread t).sreg r = (s.thread t).sreg r) ∧
    (∀ r, (r = f.vd → i ∈ [Instr.vext t f, .vsum t f, .vmaxr t f]) → (r = f.vc → i ∉ [Instr.vpack t f, .vtopk t f, .vtopp t f]) →
      (r = f.vd + 1 → i ∉ [Instr.vcomb t f, .vtopk t f]) → (r = f.vc + 1 → i ≠ .vtopk t f) →
      (u.thread t).vreg r = (s.thread t).vreg r)

/-! ## Tile instructions (R71 to R81, R95, R216 to R224) -/

/-- R95, R216: an INT8 MAC on the core's own cream, begun on an idle array with no solder armed, adds to the word of element
4 × (FEAT + φ) + τ of its tile, modulo 2^32, the dot product over k < 2,048 of weight k of feature φ with activation k of token row τ, for every
whole feature of the stream and every row up to TOK; every byte of the core's memory outside the tile's sum plane is as it was. -/
def Obligations.MacInt8DotProduct : Prop :=
  ∀ (s : State) (t : Site) (f : FmtT), s.ready t → s.memOk = true → f.wfmt = 0xA → f.afmt = 0xA → f.cls = 0 → f.src = 0 → f.span = 0 →
    let k := s.core t.core
    let lines := f.count.toNat + 1
    let feats := lines / 4
    let line0 := 512 * f.line.toNat
    let buf := if f.buf = 1 then 0x324000 else 0x320000
    let plane := if f.tile = 1 then 0x308000 else 0x300000
    f.line.toNat + lines ≤ 3072 → 1 ≤ feats → f.feat.toNat + feats ≤ 1024 → (s.thread t).solder = none →
    k.macRun = none → k.macWait = none → k.tileRead (f.tile = 1) = false → k.movesInto t.thread [decide (f.tile = 1)] (some (decide (f.buf = 1))) = false →
    k.doubleAt line0 (512 * lines) = false →
      ∃ u, exec (.mac t f) s = .next u ∧
        (∀ φ τ, φ < feats → τ ≤ f.tok.toNat →
          let e := plane + 4 * (4 * (f.feat.toNat + φ) + τ)
          (u.core t.core).word e = k.word e + BitVec.ofInt 32 (((List.range 2048).map (fun i =>
            (memGet k.mem (line0 + 2048 * φ + i)).toInt * (memGet k.mem (buf + 2112 * τ + i)).toInt)).sum)) ∧
        (∀ x, (x < plane ∨ plane + 0x4000 ≤ x) → memGet (u.core t.core).mem x = memGet k.mem x) ∧
        (∀ d, d ≠ t.core → u.core d = s.core d) ∧ u.regs = s.regs ∧ u.routers = s.routers ∧ u.stackMem = s.stackMem ∧
        u.thread t = (s.onward t).thread t

/-- R73, R74, R80, R219 to R221, R224, R225: a MAC or MACA that passes its checks and that no move holds enters the MAC queue and the thread goes on, a
second one waiting behind the running one; a MAC takes the thread's solder arming with it; MAC_COMPLETE and MACA_COMPLETE take a running one whose sweep is
made out of the array, hand-offs that waited for its buffer land, and the waiting one begins; TCLR clears both planes of its tile and no other byte of the
core's memory; SOLDER arms the thread with the four words of its descriptor. -/
def Obligations.TileQueueAndClear : Prop :=
  ∀ (s : State) (t : Site) (f : FmtT), s.ready t →
    let k := s.core t.core
    let a := ((s.thread t).sreg (f.line.setWidth 5)).toNat
    let mac : MacJob := { thread := t.thread, pc := (s.thread t).pc, f := f, solder := (s.thread t).solder }
    let maca : MacJob := { thread := t.thread, pc := (s.thread t).pc, f := f, attention := true, walk := a, head := memBytes k.mem a 32 }
    (firstFault (macChecks s t f) = none → k.macWait = none → k.tileRead (f.tile = 1) = false →
      k.movesInto t.thread [decide (f.tile = 1)] (some (decide (f.buf = 1))) = false →
      (∀ p ∈ mac.solderRanges k, k.heldByMove t.thread false p.1 p.2 = false) →
      let u := (s.onward t).modThread t (fun h => { h with solder := none })
      (∀ j, k.macRun = some j → exec (.mac t f) s = .next (u.modCore t.core (fun x => { x with macWait := some mac }))) ∧
      (k.macRun = none → exec (.mac t f) s = .next ((u.modCore t.core (fun x => { x with macRun := some mac })).startMac t.core))) ∧
    (firstFault (macaChecks s t f) = none → k.macWait = none → (∀ b ∈ maca.tiles, k.tileRead b = false) →
      k.movesInto t.thread maca.tiles (some (decide (f.buf = 1))) = false →
      k.heldByMove t.thread false a 32 = false → k.doubleAt a 32 = false →
      (∀ v, s.vatOf t.core = some v →
        (∀ p ∈ macaReads k maca (s.vfld v .kvConf 26 23), k.heldByMove t.thread false p.1 p.2 = false) →
        (∀ p ∈ macaWrites maca (s.vfld v .kvConf 26 23), k.heldByMove t.thread true p.1 p.2 = false) →
        let u := (s.onward t).readCounted t.core a 32
        (∀ j, k.macRun = some j → exec (.maca t f) s = .next (u.modCore t.core (fun x => { x with macWait := some maca }))) ∧
        (k.macRun = none → exec (.maca t f) s = .next ((u.modCore t.core (fun x => { x with macRun := some maca })).startMac t.core)))) ∧
    (∀ (c : CoreId) (j : MacJob), s.regionRuns (regionOf c) = true → (s.core c).macRun = some j → j.swept = true →
      let next := ((s.modCore c (fun x => { x with macRun := x.macWait, macWait := none })).landReleased c).startMac c
      (j.attention = false → exec (.macComplete c) s = .next next) ∧ (j.attention = true → exec (.macaComplete c) s = .next next) ∧
      ((s.core c).macWait = none → (s.core c).released = [] → next = s.modCore c (fun x => { x with macRun := none }))) ∧
    (f = { tile := f.tile } → k.tileBusy (f.tile = 1) = false → k.tileRead (f.tile = 1) = false →
      k.movesInto t.thread [decide (f.tile = 1)] none = false → s.memOk = true →
      let lo := if f.tile = 1 then 0x308000 else 0x300000
      ∃ u, exec (.tclr t f) s = .next u ∧ u.thread t = (s.onward t).thread t ∧
        (∀ x, lo ≤ x → x < lo + 0x8000 → memGet (u.core t.core).mem x = 0) ∧
        (∀ x, (x < lo ∨ lo + 0x8000 ≤ x) → memGet (u.core t.core).mem x = memGet k.mem x) ∧ u.regs = s.regs) ∧
    (f = { line := f.line } → f.line.toNat < 32 → k.heldByMove t.thread false a 16 = false → a % 16 = 0 → k.inSpm a 16 = true →
      k.doubleAt a 16 = false →
      (∀ i : Fin 4, memNat k.mem (a + 4 * i) 4 = 0xFFFFFFFF ∨ k.inSpm (memNat k.mem (a + 4 * i) 4) 4 = true) →
      exec (.solder t f) s = .next (((s.onward t).readCounted t.core a 16).modThread t (fun h => { h with solder := some ((List.range 4).map (fun i =>
        if memNat k.mem (a + 4 * i) 4 = 0xFFFFFFFF then none else some (memNat k.mem (a + 4 * i) 4))) })))

/-! ## Moves, sends, descriptors (R82, R83, R145, R178, R225, R228 to R234) -/

/-- R225: TMOV copies n bytes within the scratchpad, leaves every other byte as it was and is in progress until TMOV_COMPLETE releases its hold;
n = 0 faults with EMPTY, overlapping ranges with ADDRESS. -/
def Obligations.TmovCopies : Prop :=
  ∀ (s : State) (t : Site) (f : FmtX), s.ready t → s.memOk = true → f = { dst := f.dst, src := f.src, len := f.len } →
    let k := s.core t.core
    let n := ((s.thread t).sreg f.len).toNat
    let a := ((s.thread t).sreg f.src).toNat
    let d := ((s.thread t).sreg f.dst).toNat
    k.heldByMove t.thread false a n = false → k.heldByMove t.thread true d n = false →
    (k.inSpm a n = true → k.inSpm d n = true → k.doubleAt a n = false → n % 4 = 0 → a % 4 = 0 → d % 4 = 0 → (a + n ≤ d ∨ d + n ≤ a) →
      ∃ u, exec (.tmov t f) s = .next u ∧ u.thread t = (s.onward t).thread t ∧
        (∀ j, j < n → memGet (u.core t.core).mem (d + j) = memGet k.mem (a + j)) ∧
        (∀ x, (x < d ∨ d + n ≤ x) → memGet (u.core t.core).mem x = memGet k.mem x) ∧
        (u.core t.core).moves = k.moves ++ [{ thread := t.thread, src := a, dst := d, len := n }] ∧ u.regs = s.regs ∧
        (∀ c, c ≠ t.core → u.core c = s.core c)) ∧
    (n = 0 → exec (.tmov t f) s = .next (s.threadFault t .empty)) ∧
    (k.inSpm a n = true → k.inSpm d n = true → a < d + n → d < a + n → exec (.tmov t f) s = .next (s.threadFault t .address)) ∧
    (∀ (m : Move) (ms : List Move), k.moves = m :: ms → m.thread = t.thread → s.regionRuns (regionOf t.core) = true →
      exec (.tmovComplete t) s = .next (s.modCore t.core (fun x => { x with moves := ms })))

/-- R20, R144, R145, R149, R178, R233: a SEND that passes its checks, unrotated, puts the message's flits, at most 64 bytes each, behind the local input of its
router on the channel it names, the first marked as head and the last as tail, and the thread has one more message not yet delivered (one for each target of a
multicast); the flits carry the source bytes in order; a destination outside the vat, or in the other half while the vat has a share of no working seam port,
stops the vat with VATFAULT and sends nothing. -/
def Obligations.SendInjectsMessage : Prop :=
  ∀ (s : State) (t : Site) (f : FmtX) (v : VatId), s.ready t → s.vatOf t.core = some v →
    firstFault (sendChecks s t f) = none → f.rot = 0 →
    let k := s.core t.core
    let n := ((s.thread t).sreg f.len).toNat
    let a := ((s.thread t).sreg f.src).toNat
    let w := (s.thread t).sreg f.dst
    let dir : Fin 4 := ⟨f.mdir.toNat, f.mdir.isLt⟩
    let targets := if f.mc = 1 then mcastTargets t.core dir f.mspan.toNat else [coreOf (w.toNat % 2 ^ 9) (w.toNat / 2 ^ 9 % 2 ^ 9)]
    let vc : Fin 2 := if f.vc = 0 then 0 else 1
    k.busyAt a n = false → k.heldByMove t.thread false a n = false → k.doubleAt a n = false →
    (s.targetsInVat v targets = true → (f.mc = 0 → crossesHalf t.core w = true → s.crossesSeam v = true) →
      ∃ u fs, exec (.send t f) s = .next u ∧
        kget [] (u.router (s.posOf t.core)).inq (4, vc) = kget [] (s.router (s.posOf t.core)).inq (4, vc) ++ fs ∧
        (fs.map Flit.data).flatten = s.readLocal t.core a n ∧
        (∀ g ∈ fs, g.vat = v ∧ g.src = t.core ∧ g.cls = f.cls.toNat ∧ g.data.length ≤ 64 ∧ g.bytes = g.data.length) ∧
        (fs.head?.map Flit.head = some true) ∧ (fs.getLast?.map Flit.tail = some true) ∧
        (u.thread t).undelivered = (s.thread t).undelivered + (if f.mc = 1 then f.mspan.toNat else 1) ∧
        (u.thread t).pc = (s.thread t).pc + 1 ∧ (∀ x, x ≠ t → u.thread x = s.thread x) ∧
        ∀ c x, memGet (u.core c).mem x = memGet (s.core c).mem x) ∧
    (s.targetsInVat v targets = false ∨ (f.mc = 0 ∧ crossesHalf t.core w = true ∧ s.crossesSeam v = false) →
      exec (.send t f) s = .next ((s.onward t).report { vat := v, status := .vatfault, lx := t.core.lx, ly := t.core.ly, tick := s.tickAt t.core }))

/-- R82, R228, R230, R232: DMA and WALK copy their descriptor into the queue, and the thread waits while the queue holds 32; a local copy that passes its
checks becomes active behind the others when it starts; at most 8 are active, and one with FENCE waits until none is. -/
def Obligations.DescriptorQueue : Prop :=
  ∀ (s : State) (t : Site) (f : FmtX), s.ready t → f = { src := f.src } →
    let k := s.core t.core
    let a := ((s.thread t).sreg f.src).toNat
    let taken (walk : Bool) : Result :=
      .next { (((s.onward t).readCounted t.core a 32).modCore t.core (fun x =>
        { x with dmaQ := x.dmaQ ++ [{ descOf k a walk with uid := s.seq }] })) with seq := s.seq + 1 }
    (k.dmaQ.length < 32 → k.heldByMove t.thread false a 32 = false → k.doubleAt a 32 = false →
      (firstFault (descChecks s t a false) = none → exec (.dma t f) s = taken false) ∧
      (firstFault (descChecks s t a true) = none → exec (.walk t f) s = taken true) ∧
      (a % 32 ≠ 0 → exec (.dma t f) s = .next (s.threadFault t .address) ∧ exec (.walk t f) s = .next (s.threadFault t .address))) ∧
    (32 ≤ k.dmaQ.length → exec (.dma t f) s = .next s ∧ exec (.walk t f) s = .next s) ∧
    (∀ (c : CoreId) (d : Desc) (ds : List Desc) (v : VatId), (s.core c).dmaQ = d :: ds → s.vatOf c = some v →
      s.regionRuns (regionOf c) = true → startHeld s c d = false →
      ((s.core c).dmaActive.length < 8 → (d.fence = true → (s.core c).dmaActive = []) → d.isWalk = false →
        kindOf d.src = 0 → kindOf d.dst = 0 → descFault s c v d = none →
        exec (.dmaDescriptorStart c) s = .next (s.modCore c (fun x => { x with
          dmaQ := ds, dmaActive := x.dmaActive ++ [{ d with startTick := s.tickOf (halfOf (regionOf c)), window := s.remoteWindow v }] }))) ∧
      (8 ≤ (s.core c).dmaActive.length → exec (.dmaDescriptorStart c) s = .next s) ∧
      (d.fence = true → (s.core c).dmaActive ≠ [] → exec (.dmaDescriptorStart c) s = .next s))

/-- R83, R231: a local copy whose descriptor completes without SIGNAL has moved LENGTH bytes from its source to its destination in the scratchpad, writes
DONE with the status OK to its status word, and leaves the list of active descriptors; other bytes are as they were. -/
def Obligations.LocalCopyCompletes : Prop :=
  ∀ (s : State) (c : CoreId) (i : Fin 8) (d : Desc), s.memOk = true → (s.core c).dmaActive[i.val]? = some d → s.regionRuns (regionOf c) = true →
    d.isWalk = false → d.result = none → d.signal = false → kindOf d.src = 0 → kindOf d.dst = 0 →
    let k := s.core c
    let a := addr0 d.src
    let b := addr0 d.dst
    k.inSpm a d.length = true → k.inSpm b d.length = true → k.doubleAt a d.length = false → (a + d.length ≤ b ∨ b + d.length ≤ a) →
    d.statusAddr % 4 = 0 → (d.statusAddr = 0 ∨ k.inSpm d.statusAddr 4 = true ∧ (d.statusAddr + 4 ≤ b ∨ b + d.length ≤ d.statusAddr)) →
    moveHeld s c d = false →
      ∃ u, exec (.dmaDescriptorComplete c i) s = .next u ∧ (u.core c).dmaActive = k.dmaActive.eraseIdx i ∧
        (∀ j, j < d.length → memGet (u.core c).mem (b + j) = memGet k.mem (a + j)) ∧
        (d.statusAddr ≠ 0 → (u.core c).word d.statusAddr = 0x100) ∧
        (∀ x, (x < b ∨ b + d.length ≤ x) → (x < d.statusAddr ∨ d.statusAddr + 4 ≤ x ∨ d.statusAddr = 0) →
          memGet (u.core c).mem x = memGet k.mem x) ∧
        (∀ e, e ≠ c → u.core e = s.core e) ∧ u.regs = s.regs ∧ u.stackMem = s.stackMem

/-! ## Waits, signals and threads (R171, R175 to R178, R186, R187, R235, R236) -/

/-- R171, R175, R177, R178, R235: SADD sends ADD to the counter's store; ARRIVE sends ARRIVE with the mirror's generation and sets the thread's arrived bit,
and the thread goes on; ARRIVEW does the same and waits for that bit to clear; a second arrival in a round is held at the head; WAITV goes on when the
mirror's value has reached its target and waits otherwise; WAITG goes on when the arrived bit is 0 and waits otherwise. While the thread has something not yet
delivered, SADD and the arrivals are held. Each of the five faults with COUNTER when its id has no valid entry in VAT_SYNC_MAP. -/
def Obligations.WaitAndSignalResult : Prop :=
  ∀ (s : State) (t : Site) (f : FmtW) (v : VatId) (i : Vid), s.ready t → f.rsv1 = 0 → f.rsv2 = 0 → s.vatOf t.core = some v → i.val = f.vid.toNat →
    let m := s.mirror v i t.core
    let bit := bitAt m.arrived t.thread
    let goes (w : State) : Prop := (w.thread t).pc = (s.thread t).pc + 1 ∧ (w.thread t).status = .ready
    let waits (w : State) (st : ThreadStatus) : Prop :=
      (w.thread t).pc = (s.thread t).pc + 1 ∧ (w.thread t).status = st ∧ (w.thread t).waitSince = s.tickOf (halfOf (regionOf t.core))
    let crosses : Prop := ∀ (h : Half) (ix : Nat), s.syncMap v i = some (h, ix) → halfOf (regionOf t.core) ≠ h → s.crossesSeam v = true
    let arrived (w : State) : Prop :=
      SignalSent s w t.core v i 2 m.gen.toNat 0 ∧ w.mirror v i t.core = { m with arrived := m.arrived ||| (1#16 <<< t.thread.val) }
    ((s.syncMap v i).isSome = true → crosses → f.s = 0 → (s.thread t).undelivered = 0 →
      (f.value ≠ 0 → ∃ w, exec (.sadd t f) s = .next w ∧ goes w ∧ SignalSent s w t.core v i 1 0 f.value.toNat) ∧
      (f.value = 0 → s.mirrored v i t.core = true → s.isBarrier v i = true → bit = false →
        (∃ w, exec (.arrive t f) s = .next w ∧ goes w ∧ arrived w) ∧
        (∃ w, exec (.arrivew t f) s = .next w ∧ waits w (.waitG i) ∧ arrived w))) ∧
    (f.s = 0 → f.value = 0 → (s.thread t).undelivered = 0 → s.mirrored v i t.core = true → s.isBarrier v i = true → bit = true →
      let held := s.modThread t (fun h => { h with status := .heldArrive i, waitSince := s.tickOf (halfOf (regionOf t.core)) })
      exec (.arrive t f) s = .next held ∧ exec (.arrivew t f) s = .next held) ∧
    ((s.thread t).undelivered ≠ 0 →
      exec (.sadd t f) s = .next s ∧ exec (.arrive t f) s = .next s ∧ exec (.arrivew t f) s = .next s) ∧
    (f.value = 0 → s.mirrored v i t.core = true → s.isBarrier v i = false →
      let target : Word32 := ((s.thread t).sreg f.s).setWidth 32
      ((m.value - target).toNat < 2 ^ 31 → exec (.waitv t f) s = .next (s.onward t)) ∧
      (2 ^ 31 ≤ (m.value - target).toNat →
        ∃ w, exec (.waitv t f) s = .next w ∧ waits w (.waitV i target) ∧ ThreadsOnly t.core s w ∧ ∀ x, x ≠ t → w.thread x = s.thread x)) ∧
    (f.value = 0 → f.s = 0 → s.mirrored v i t.core = true → s.isBarrier v i = true →
      (bit = false → exec (.waitg t f) s = .next (s.onward t)) ∧
      (bit = true →
        ∃ w, exec (.waitg t f) s = .next w ∧ waits w (.waitG i) ∧ ThreadsOnly t.core s w ∧ ∀ x, x ≠ t → w.thread x = s.thread x)) ∧
    (s.syncMap v i = none →
      let stop : Result := .next (s.threadFault t .counter)
      (f.s = 0 → (s.thread t).undelivered = 0 →
        exec (.sadd t f) s = stop ∧ (f.value = 0 → exec (.arrive t f) s = stop ∧ exec (.arrivew t f) s = stop)) ∧
      (f.value = 0 → exec (.waitv t f) s = stop ∧ (f.s = 0 → exec (.waitg t f) s = stop)))

/-- R186, R187, R191, R192, R236: EOB holds the thread for the beat edge and discards its solder arming, TSTART starts an idle thread at TARGET with its
argument in s0 and waits while it is not idle, TSTOP makes the thread idle, FENCE goes on once the thread's MACs, moves and sends are done and waits before,
and a word whose opcode the map does not list faults with ILLEGAL. -/
def Obligations.ThreadControlResult : Prop :=
  ∀ (s : State) (t : Site) (f : FmtB), s.canIssue t = true →
    let k := s.core t.core
    ((s.thread t).pc ≠ 2047 →
      exec (.eob t {}) s = .next ((s.onward t).modThread t (fun h => { h with status := .eob, solder := none })) ∧
      (fenceMet k t.thread = true → exec (.fence t {}) s = .next (s.onward t)) ∧
      (fenceMet k t.thread = false → exec (.fence t {}) s = .next s) ∧
      (f.a = 0 → f.cond = 0 → f.rsv = 0 → f.thread.toNat ≠ t.thread.val → f.target.toNat < 2048 →
        let x : Site := ⟨t.core, ⟨f.thread.toNat, f.thread.isLt⟩⟩
        ((s.thread x).status = .idle → exec (.tstart t f) s = .next ((s.onward t).modThread x (fun h =>
          { (h.setS 0 ((s.thread t).sreg f.b)) with status := .ready, pc := f.target.toNat }))) ∧
        ((s.thread x).status ≠ .idle → exec (.tstart t f) s = .next s))) ∧
    exec (.tstop t {}) s = .next (s.modThread t (fun h => { h with status := .idle })) ∧
    (∀ w : Word64, inOpcodeMap (w.toNat % 256) = false → exec (.illegalOpcode t w) s = .next (s.threadFault t .illegal)) ∧
    (fenceMet k t.thread = true ↔ (∀ j, (k.macRun = some j ∨ k.macWait = some j) → j.thread ≠ t.thread) ∧
      (∀ m ∈ k.moves, m.thread ≠ t.thread) ∧ (s.thread t).undelivered = 0)

/-! ## The mesh (R143 to R158) -/

/-- R143, R150, R151, R153, R157: what FLIT_FORWARD sends, once the counter store at the router has put the next row of a NOTIFY behind its local input. A
unicast flit that the arbitration of an output picks from an input goes on the link's wire and into its replay buffer with the link's next number, one credit
is used, and it leaves its input's queue; at the local output it joins the delivery queue; one from the replay buffer of a dead link goes on the wire in the
same way and leaves that buffer; an output that has nothing to send sends nothing, and a router that does not work changes nothing. -/
def Obligations.FlitForwardSends : Prop :=
  ∀ (s : State) (r : RouterId) (o : Fin 5) (cyc : Nat),
    let s1 := s.notifyNext r
    let k := s1.router r
    (s.routerWorks r = true → ∀ (i : Fin 5) (vc : Fin 2) (f : Flit), s1.arbitrate r o cyc = some (some (i, vc), f) → f.mcast = false → f.bypass = false →
      (∀ d : Fin 4, dirOf o = some d → s1.seamAt r d = none → s1.rimAt r d = none →
        ∃ u g, exec (.flitForward r o cyc) s = .next u ∧ g.data = f.data ∧ g.vat = f.vat ∧ g.dstPx = f.dstPx ∧ g.dstPy = f.dstPy ∧
          g.lseq = kget 0 k.lseqOut d ∧
          kget [] (u.router r).wire d = kget [] k.wire d ++ [g] ∧ kget [] (u.router r).replay d = kget [] k.replay d ++ [g] ∧
          kget 0 (u.router r).lseqOut d = (kget 0 k.lseqOut d + 1) % 64 ∧ kget 0 (u.router r).used (o, f.vc) = kget 0 k.used (o, f.vc) + 1 ∧
          kget [] (u.router r).inq (i, vc) = (kget [] k.inq (i, vc)).tail) ∧
      (o = 4 → ∃ u, exec (.flitForward r o cyc) s = .next u ∧ (u.router r).deliver = k.deliver ++ [f] ∧
        kget [] (u.router r).inq (i, vc) = (kget [] k.inq (i, vc)).tail)) ∧
    (s.routerWorks r = true → ∀ (f : Flit) (d : Fin 4), s1.arbitrate r o cyc = some (none, f) → dirOf o = some d → s1.seamAt r d = none →
      s1.rimAt r d = none → ∃ u g, exec (.flitForward r o cyc) s = .next u ∧ g.data = f.data ∧ g.vat = f.vat ∧ g.lseq = kget 0 k.lseqOut d ∧
        kget [] (u.router r).wire d = kget [] k.wire d ++ [g] ∧ (u.router r).redo = k.redo.drop 1) ∧
    (s.routerWorks r = true → s1.arbitrate r o cyc = none → exec (.flitForward r o cyc) s = .next s1) ∧
    (s.routerWorks r = false → exec (.flitForward r o cyc) s = .next s)

/-- R12, R143, R157: a router's input of a direction comes from the router one place north, east, south or west of it, y growing
southward; a flit whose CRC passes and whose number is expected is stood in its input's queue, and the next number is expected; the first three times that one
fails its CRC it is discarded and a replay is asked for; one out of sequence is discarded; a replay puts the flits from the number asked for on the wire
again. Flits that go by a bypass are not spoken of here. -/
def Obligations.FlitLinkProtocol : Prop :=
  ∀ (s : State) (r q : RouterId) (inp : Fin 4) (f : Flit) (fs : List Flit), neighbour r inp = some q → s.routerWorks r = true →
    kget [] (s.router q).wire (inp + 2) = f :: fs → f.bypass = false →
    let expected := kget 0 (s.router r).lseqIn inp
    let i : Fin 5 := ⟨inp.val, by have := inp.isLt; omega⟩
    (inp = 0 → q.px = r.px ∧ q.py.val + 1 = r.py.val) ∧ (inp = 1 → q.px.val = r.px.val + 1 ∧ q.py = r.py) ∧
    (inp = 2 → q.px = r.px ∧ q.py.val = r.py.val + 1) ∧ (inp = 3 → q.px.val + 1 = r.px.val ∧ q.py = r.py) ∧
    (f.lseq = expected → ∃ u g, exec (.flitReceive r inp true) s = .next u ∧ g.data = f.data ∧ g.vat = f.vat ∧ g.dstAddr = f.dstAddr ∧
      kget [] (u.router r).inq (i, f.vc) = kget [] (s.router r).inq (i, f.vc) ++ [g] ∧
      kget 0 (u.router r).lseqIn inp = (f.lseq + 1) % 64 ∧ kget [] (u.router q).wire (inp + 2) = fs) ∧
    (f.lseq ≠ expected → ∀ ok, exec (.flitReceive r inp ok) s = .next (s.modRouter q (fun k => { k with wire := kset k.wire (inp + 2) fs }))) ∧
    (f.lseq = expected → kget 0 (s.router q).fails (inp + 2) < 3 → ∃ u, exec (.flitReceive r inp false) s = .next u ∧
      kget [] (u.router q).wire (inp + 2) = fs ∧ kfind (u.router q).replayReq (inp + 2) = some expected ∧ u.router r = s.router r) ∧
    (∀ n, kfind (s.router q).replayReq (inp + 2) = some n → neighbour q (inp + 2) = some r → ∃ u, exec (.meshReplay q (inp + 2)) s = .next u ∧
      kfind (u.router q).replayReq (inp + 2) = none ∧
      kget [] (u.router q).wire (inp + 2) =
        kget [] (s.router q).wire (inp + 2) ++ (kget [] (s.router q).replay (inp + 2)).dropWhile (fun g => g.lseq ≠ n))

/-- R44, R145, R149, R153, R172, R178: what FLIT_DELIVERY does with a plain DATA flit for the scratchpad, whose word checks find no double error: its bytes are
written and no others, or, when it comes from another stage of the ring, it is held for the beat edge; in both cases a counted tail puts its acknowledgement, a
CONTROL flit, behind the router's local input. A NOTIFY is handed to the core's mirrors, an ADD or ARRIVE to the store at the router, an acknowledgement to the
sending core; a flit whose vat is not the core's is discarded, counted, and its vat reported with VATFAULT. DELIVERY_ACKNOWLEDGEMENT takes one off what the
thread, the core's signals or the descriptor still await; CREDIT_RETURN gives its output a credit back. -/
def Obligations.FlitDeliveryWrites : Prop :=
  (∀ (s : State) (r : RouterId) (c : CoreId) (f : Flit) (fs : List Flit), s.memOk = true → s.routerWorks r = true →
    (s.router r).deliver = f :: fs → s.coreAt r = some c →
    (s.vatOf c = some f.vat → f.ack = false → f.cls = 0 → f.op = 0 → f.data.length = f.bytes → (s.core c).inSpm f.dstAddr f.bytes = true →
      let acked (u : State) : Prop := f.tail = true → f.counted = true → ∃ g,
        kget [] (u.router r).inq (4, 1) = kget [] (s.router r).inq (4, 1) ++ [g] ∧ g.ack = true ∧ g.cls = 5 ∧ g.src = f.src ∧ g.vat = f.vat ∧
        g.thread = f.thread ∧ g.uid = f.uid ∧ g.data = [] ∧ g.tail = true
      (s.handedOff f c = false → (s.core c).doubleAt f.dstAddr f.bytes = false →
        ∃ u, exec (.flitDelivery r) s = .next u ∧ (u.router r).deliver = fs ∧
          (∀ j, j < f.bytes → memGet (u.core c).mem (f.dstAddr + j) = f.data.getD j 0) ∧
          (∀ x, (x < f.dstAddr ∨ f.dstAddr + f.bytes ≤ x) → memGet (u.core c).mem x = memGet (s.core c).mem x) ∧
          (∀ d x, d ≠ c → memGet (u.core d).mem x = memGet (s.core d).mem x) ∧ u.regs = s.regs ∧ u.reports = s.reports ∧ acked u) ∧
      (s.handedOff f c = true →
        ∃ u, exec (.flitDelivery r) s = .next u ∧ (u.router r).deliver = fs ∧ (u.core c).handoff = (s.core c).handoff ++ [f] ∧
          (∀ d x, memGet (u.core d).mem x = memGet (s.core d).mem x) ∧ u.regs = s.regs ∧ u.reports = s.reports ∧ acked u)) ∧
    (s.vatOf c = some f.vat → f.ack = false → f.cls = 3 → leAt f.data 0 1 = 3 → ∃ u, exec (.flitDelivery r) s = .next u ∧
      (u.core c).notifyQ = (s.core c).notifyQ ++ [f] ∧ (u.router r).deliver = fs) ∧
    (f.ack = false → f.cls = 3 → leAt f.data 0 1 = 1 ∨ leAt f.data 0 1 = 2 → (s.storeAtRouter r).isSome = true →
      ∃ u, exec (.flitDelivery r) s = .next u ∧ (u.router r).storeQ = (s.router r).storeQ ++ [f] ∧ (u.router r).deliver = fs) ∧
    (s.vatOf c = some f.vat → f.ack = true → f.seam = none → ∃ u, exec (.flitDelivery r) s = .next u ∧
      (u.core c).acks = (s.core c).acks ++ [(f.thread, f.uid)] ∧ (u.router r).deliver = fs) ∧
    (s.vatOf c ≠ some f.vat → f.ack = false → f.cls ≠ 3 → ∃ u, exec (.flitDelivery r) s = .next u ∧ (u.router r).deliver = fs ∧ u.cores = s.cores ∧
      u.vfld f.vat .meshStatus 63 32 = min (s.vfld f.vat .meshStatus 63 32 + 1) (2 ^ 32 - 1) ∧
      u.reports = s.reports ++ [{ vat := f.vat, status := .vatfault, lx := c.lx, ly := c.ly, tick := s.tickAt c }])) ∧
  (∀ (s : State) (c : CoreId) (th : Option (Fin 16)) (uid : Nat) (rest : List (Option (Fin 16) × Nat)), (s.core c).acks = (th, uid) :: rest →
    ∃ u, exec (.deliveryAcknowledgement c) s = .next u ∧ (u.core c).acks = rest ∧ (u.core c).mem = (s.core c).mem ∧
      (∀ i, th = some i → ((u.core c).thread i).undelivered = ((s.core c).thread i).undelivered - 1) ∧
      (th = none → uid = 0 → (u.core c).signalsOut = (s.core c).signalsOut - 1) ∧
      (th = none → uid ≠ 0 → (u.core c).dmaActive = (s.core c).dmaActive.map (fun d =>
        if d.uid = uid then { d with undelivered := d.undelivered - 1 } else d))) ∧
  (∀ (s : State) (r : RouterId) (o : Fin 5) (vc : Fin 2), kget 0 (s.router r).returning (o, vc) ≠ 0 →
    ∃ u, exec (.creditReturn r o vc) s = .next u ∧ kget 0 (u.router r).used (o, vc) = kget 0 (s.router r).used (o, vc) - 1 ∧
      kget 0 (u.router r).returning (o, vc) = kget 0 (s.router r).returning (o, vc) - 1 ∧ u.regs = s.regs ∧ u.cores = s.cores)

/-- R17 to R19, R159, R160, R295: the receiving side of a seam port forwards a message that passes its checks, on VC1, and refuses any other of a vat that
exists, counting it and reporting its vat with VATFAULT; a round of the deficit round robin at a link on which one vat alone has one packet waiting, which the
link can carry, sends it with the link's next sequence number when the vat's weight covers it, and sends no packet when the weight is 0. -/
def Obligations.SharedPortService : Prop :=
  (∀ (s : State) (n : Fin 16) (h : Half) (f : Flit) (fs : List Flit) (rest : List (List Flit)),
    kget [] (kget {} s.seams n).arrived h = (f :: fs) :: rest →
    (s.seamPasses n (f :: fs) = true → ∃ u gs, exec (.seamMessageCheck n h) s = .next u ∧
      kget [] (kget {} u.seams n).arrived h = rest ∧
      kget [] (u.router (s.seamRouter n h).1).inq ((s.seamRouter n h).2, 1) =
        kget [] (s.router (s.seamRouter n h).1).inq ((s.seamRouter n h).2, 1) ++ gs ∧
      gs.map Flit.data = (f :: fs).map Flit.data ∧ u.regs = s.regs) ∧
    (s.seamPasses n (f :: fs) = false → s.exists_ f.vat = true → ∃ u, exec (.seamMessageCheck n h) s = .next u ∧
      kget [] (kget {} u.seams n).arrived h = rest ∧ u.routers = s.routers ∧
      u.rfld (.meshSeam n) 31 0 = min (s.rfld (.meshSeam n) 31 0 + 1) (2 ^ 32 - 1) ∧
      u.reports = s.reports ++ [{ vat := f.vat, status := .vatfault, lx := f.src.lx, ly := f.src.ly, tick := s.tickAt f.src }])) ∧
  (∀ (s : State) (l : LinkId) (v : VatId) (p : Packet), (s.link l).ahead = [] →
    kget [] (s.sched (.link l) true).waiting (seatOf v) = [Parcel.packet p] →
    (∀ who, who ≠ seatOf v → kget [] (s.sched (.link l) true).waiting who = []) → s.canCarry (.link l) true (.packet p) = true →
    (s.weight (.link l) v ≠ 0 → 64 * ((p.length.toNat + 63) / 64) ≤ 512 * s.weight (.link l) v →
      ∃ u more, exec (.serveRound (.link l) true) s = .next u ∧
        (u.link l).sent = (s.link l).sent ++ Sent.packet { p with lseq := (s.link l).lseqOut } :: more ∧
        (∀ x ∈ more, ∀ q, x ≠ Sent.packet q) ∧
        (u.link l).lseqOut = (s.link l).lseqOut + 1 ∧ (u.link l).replay = (s.link l).replay ++ [{ p with lseq := (s.link l).lseqOut }] ∧
        kget [] (u.sched (.link l) true).waiting (seatOf v) = []) ∧
    (s.weight (.link l) v = 0 →
      ∃ u more, exec (.serveRound (.link l) true) s = .next u ∧ (u.link l).sent = (s.link l).sent ++ more ∧ (∀ x ∈ more, ∀ q, x ≠ Sent.packet q) ∧
        (u.link l).lseqOut = (s.link l).lseqOut ∧ kget [] (u.sched (.link l) true).waiting (seatOf v) = [Parcel.packet p]))

/-- R53, R158, R163, R164: MESH_COMMIT_GO copies the shadow tables of a drained vat's routers into its pending set, or refuses them when the vat is not drained
or a shadow breaks a rule, and changes no router; MESH_TABLES_APPLY puts a pending set whose tick has come into the tables of its routers, entry by entry, records
that tick in AT_TICK and leaves nothing pending; it does nothing while no tick has come. -/
def Obligations.MeshTablesCommit : Prop :=
  ∀ (s : State) (v : VatId),
    (s.drained v = true → (∀ r ∈ s.vatRouters v, s.shadowBad r = false) →
      ∃ u p, exec (.meshCommitGo v) s = .next u ∧ kfind u.meshStaged v = some p ∧ p.due = none ∧ u.vfld v .meshCommit 1 1 = 1 ∧ u.routers = s.routers ∧
        (∀ r ∈ s.vatRouters v, ∀ e ∈ (s.router r).routeShadow, (r, e.1, e.2) ∈ p.routes) ∧
        (∀ r ∈ s.vatRouters v, ∀ e ∈ (s.router r).slotShadow, (r, e.1, e.2) ∈ p.slots)) ∧
    ((s.drained v = false ∨ ∃ r ∈ s.vatRouters v, s.shadowBad r = true) →
      ∃ u, exec (.meshCommitGo v) s = .next u ∧ u.meshStaged = s.meshStaged ∧ u.vfld v .meshCommit 2 2 = 1 ∧ u.routers = s.routers) ∧
    (∀ (p : MeshSet) (n : Nat), kfind s.meshStaged v = some p → p.due = some n → (p.routes.map (fun e => (e.1, e.2.1))).Nodup →
      (p.slots.map (fun e => (e.1, e.2.1))).Nodup → ∃ u, exec (.meshTablesApply v) s = .next u ∧ u.vfld v .meshCommit 1 1 = 0 ∧
        u.vfld v .meshCommit 63 16 = n % 2 ^ 48 ∧ kfind u.meshStaged v = none ∧
        (∀ e ∈ p.routes, kget 0 (u.router e.1).routes e.2.1 = e.2.2) ∧ (∀ e ∈ p.slots, kget 0 (u.router e.1).slots e.2.1 = e.2.2) ∧
        (∀ r i, (r, i) ∉ p.routes.map (fun e => (e.1, e.2.1)) → kget 0 (u.router r).routes i = kget 0 (s.router r).routes i) ∧
        (∀ r i, (r, i) ∉ p.slots.map (fun e => (e.1, e.2.1)) → kget 0 (u.router r).slots i = kget 0 (s.router r).slots i) ∧ u.cores = s.cores) ∧
    ((∀ p, kfind s.meshStaged v = some p → p.due = none) → exec (.meshTablesApply v) s = .next s)

/-! ## Ticks, commits and beats (R31 to R55, R260) -/

/-- R32, R34, R35, R53: a tick of a running half raises that half's number by one modulo 2^48 and leaves the other half's; TICK_COUNT follows the half that the
rim blocks take, and what was committed before that half's tick is due from it on; a half whose generator is stopped has no tick. -/
def Obligations.TickCountsModulo : Prop :=
  ∀ (s : State) (h : Half),
    (s.runs h = true → s.twin.taking = [] → ∃ u, exec (.tick h) s = .next u ∧ u.tickOf h = (s.tickOf h + 1) % 2 ^ 48 ∧
      (∀ g, g ≠ h → u.tickOf g = s.tickOf g) ∧ (∀ g, u.runs g = s.runs g) ∧ u.cores = s.cores ∧ (s.meshStaged = [] → u.routers = s.routers) ∧
      (s.rimHalf = h → u.getReg .tickCount = BitVec.ofNat 64 ((s.tickOf h + 1) % 2 ^ 48) ∧
        (∀ g p, kfind s.staged g = some p → p.due = none → kfind u.staged g = some { p with due := some ((s.tickOf h + 1) % 2 ^ 48) }) ∧
        (∀ v p, kfind s.meshStaged v = some p → p.due = none → kfind u.meshStaged v = some { p with due := some ((s.tickOf h + 1) % 2 ^ 48) }))) ∧
    (s.runs h = false → exec (.tick h) s = .next s)

/-- R36, R361: a powered region that loses its tick is fenced, which stops its clock, and the vat that holds it is reported with VATFAULT for a hardware
stop. -/
def Obligations.TickLossFences : Prop :=
  ∀ (s : State) (r : Region), s.regionOn r = true → s.pow.fenced.contains r = false →
    ∃ u, exec (.tickLoss r) s = .next u ∧ r ∈ u.pow.fenced ∧ u.regionRuns r = false ∧ u.cores = s.cores ∧
      (∀ v, s.ownerOf r = some v → ∃ x, u.reports = s.reports ++ [x] ∧ x.vat = v ∧ x.status = .vatfault ∧ x.hardware = true) ∧
      (s.ownerOf r = none → u.reports = s.reports)

/-- R31, R53, R54, R260: with no pending set of the group whose tick has come, TICK_COMMIT_GO copies every shadow of the tick group into its pending set, or
refuses them as a whole when the period would be below 500 ns; VAT_COMMIT_GO copies every shadow of the vat's group; STAGED_COMMIT_APPLY gives every register of
a pending set whose tick has come its staged bits and leaves its other bits, records that tick in AT_TICK and leaves nothing pending, a vat's CMD being taken
as a command or, from 6 on, refused; it does nothing while no tick has come. -/
def Obligations.StagedCommits : Prop :=
  (∀ s : State, (∀ p, kfind s.staged none = some p → p.due = none) →
    (fld (s.shadowOf .tickPeriod) 15 0 < 500 →
      ∃ u, exec .tickCommitGo s = .next u ∧ u.rfld .tickCommit 2 2 = 1 ∧ u.staged = s.staged ∧ u.shadow = s.shadow ∧
        ∀ r, r ≠ .tickCommit → u.getReg r = s.getReg r) ∧
    (500 ≤ fld (s.shadowOf .tickPeriod) 15 0 →
      ∃ u p, exec .tickCommitGo s = .next u ∧ u.rfld .tickCommit 1 1 = 1 ∧ kfind u.staged none = some p ∧ p.due = none ∧
        (∀ r, r ≠ .tickCommit → u.getReg r = s.getReg r) ∧ (∀ x ∈ p.vals, x.1 = .tickPeriod ∨ ∃ q, x.1 = .tickLead q) ∧
        (∀ w, kfind s.shadow .tickPeriod = some w → (Reg.tickPeriod, w) ∈ p.vals) ∧
        (∀ q w, kfind s.shadow (.tickLead q) = some w → (Reg.tickLead q, w) ∈ p.vals))) ∧
  (∀ (s : State) (v : VatId), (∀ p, kfind s.staged (some v) = some p → p.due = none) →
    ∃ u p, exec (.vatCommitGo v) s = .next u ∧ kfind u.staged (some v) = some p ∧ p.due = none ∧ u.vfld v .vatCommit 1 1 = 1 ∧
      (∀ r, r ≠ .vat v .vatCommit → u.getReg r = s.getReg r) ∧ (∀ x ∈ p.vals, ∃ r, x.1 = .vat v r) ∧
      (∀ (r : VatReg) (w : Word64), kfind s.shadow (.vat v r) = some w → (Reg.vat v r, w) ∈ p.vals)) ∧
  (∀ (s : State) (g : Option VatId) (p : Staged) (n : Nat), kfind s.staged g = some p → p.due = some n → (p.vals.map Prod.fst).Nodup →
    (∀ x ∈ p.vals, match g with
      | none => x.1 = .tickPeriod ∨ ∃ q, x.1 = .tickLead q
      | some v => ∃ r, x.1 = .vat v r ∧ r ≠ .vatCommit ∧ r ≠ .vatStatus) →
    let commit : Reg := match g with
      | none => .tickCommit
      | some v => .vat v .vatCommit
    ∃ u, exec (.stagedCommitApply g) s = .next u ∧ kfind u.staged g = none ∧ u.rfld commit 1 1 = 0 ∧ u.rfld commit 63 16 = n % 2 ^ 48 ∧
      (∀ x ∈ p.vals, (∀ v, x.1 ≠ .vat v .vatCtrl) →
        let m : Word64 := BitVec.ofNat 64 (tkMask x.1)
        u.getReg x.1 &&& m = x.2 &&& m ∧ u.getReg x.1 &&& ~~~m = s.getReg x.1 &&& ~~~m) ∧
      (∀ (v : VatId) (w : Word64), g = some v → (Reg.vat v .vatCtrl, w) ∈ p.vals →
        u.vfld v .vatCtrl 2 0 = 0 ∧ (1 ≤ w.toNat % 8 → w.toNat % 8 < 6 → (u.vat v).cmd = BitVec.ofNat 3 (w.toNat % 8)) ∧
        (6 ≤ w.toNat % 8 → u.vfld v .vatStatus 3 3 = 1)) ∧ u.cores = s.cores) ∧
  (∀ (s : State) (g : Option VatId), (∀ p, kfind s.staged g = some p → p.due = none) → exec (.stagedCommitApply g) s = .next s)

/-- R37, R38, R44 to R46, R187, R376: the beat gate. Before the effective multiple of ticks it only counts; then, with every stage and the ladle done, the beat
edge comes: threads held at EOB become ready, a hand-off flit for the scratchpad lands, and every pail stands one stage further on; otherwise the tick slips, and
a run past SLIP_LIMIT ends the edges, for which SLIP_LIMIT_EXCEEDED reports SLIP with the tick of that slip. A stage whose cores are done and whose messages are
accepted reports once a beat. -/
def Obligations.BeatGateResult : Prop :=
  (∀ (s : State) (v : VatId), kfind s.staged (some v) = none → s.vstate v = 2 ∨ s.vstate v = 3 → (s.vat v).gateOff = false →
    (s.vat v).stopDue = false → (s.vat v).gateTick ≠ some s.now →
    let s1 := s.modVat v (fun x => { x with elapsed := x.elapsed + 1, gateTick := some s.now })
    let k := min 16 (s.vfld v .vatBeat 3 0 + 1 + s.rfld (.thermVat v) 4 1)
    let n := (s.ring v).length
    ((s.vat v).elapsed + 1 < k → exec (.beatGate v) s = .next s1) ∧
    (k ≤ (s.vat v).elapsed + 1 → s1.allDone v = true → ∃ u, exec (.beatGate v) s = .next u ∧ (u.vat v).elapsed = 0 ∧
      (u.vat v).edges = (s.vat v).edges + 1 ∧ (u.vat v).done = [] ∧ (u.vat v).slipRun = 0 ∧
      (∀ p, n ≠ 0 → stageAt n (u.vat v).edges p = (stageAt n (s.vat v).edges p + 1) % n) ∧
      ∀ c, s.holds v (regionOf c) = true → (∃ x, kfind s.cores c = some x) →
        (∀ t : Fin 16, ((s.core c).thread t).status = .eob →
          ((u.core c).thread t).status = .ready ∧ ((u.core c).thread t).pc = ((s.core c).thread t).pc) ∧
        (∀ f : Flit, s.memOk = true → (s.core c).handoff = [f] → (s.core c).released = [] → f.op = 0 → f.data.length = f.bytes →
          (s.core c).inSpm f.dstAddr f.bytes = true → (s.core c).doubleAt f.dstAddr f.bytes = false →
          (u.core c).handoff = [] ∧ ∀ j, j < f.bytes → memGet (u.core c).mem (f.dstAddr + j) = f.data.getD j 0)) ∧
    (k ≤ (s.vat v).elapsed + 1 → s1.allDone v = false → ∃ u, exec (.beatGate v) s = .next u ∧
      (u.vat v).slipRun = (s.vat v).slipRun + 1 ∧ u.vfld v .vatSlip 31 0 = min (s.vfld v .vatSlip 31 0 + 1) (2 ^ 32 - 1) ∧
      (u.vat v).gateOff = decide (s.vfld v .vatBeat 11 4 ≠ 0 ∧ s.vfld v .vatBeat 11 4 < (s.vat v).slipRun + 1) ∧
      ((u.vat v).gateOff = true → (u.vat v).slipDue = some s.now) ∧ u.cores = s.cores)) ∧
  (∀ (s : State) (v : VatId) (n : Nat), (s.vat v).slipDue = some n → exec (.slipLimitExceeded v) s =
    .next ((s.modVat v (fun w => { w with slipDue := none })).report { vat := v, status := .slip, tick := n })) ∧
  (∀ (s : State) (v : VatId) (n : Nat) (x : StageInfo), (s.ring v)[n]? = some x → n ∉ (s.vat v).done →
    (∀ c ∈ x.cores, (s.core c).done = true ∧ (s.core c).delivered = true) →
    exec (.doneReport v n) s = .next (s.modVat v (fun w => { w with done := n :: w.done })))

/-! ## Counters, mirrors and lending (R168 to R180) -/

/-- R169 to R175, R177: STORE_ADD adds to a signal counter modulo 2^32 and gives the new value to a NOTIFY where the counter sends one; STORE_ARRIVE counts an
arrival of the barrier's generation, the last of the round clearing the count, flipping the generation and counting the round; either discards a flit for an
entry that its vat does not own, and an arrival of another generation, counting it and reporting its vat with VATFAULT, and an ADD to a barrier is reported too;
NOTIFY gives the mirror the value and generation, clears the arrived bits and makes the threads ready whose wait ends. -/
def Obligations.CounterStoreResult : Prop :=
  (∀ (s : State) (h : Half) (col : Fin 16) (f : Flit) (fs : List Flit), (s.router (s.storeRouter h col)).storeQ = f :: fs →
    s.regionRuns (regionAt (s.storeRouter h col)) = true →
    let i := s.counterOf f
    let word := s.vreg f.vat (.ctr i 0)
    let taken (u : State) : Prop := (u.router (s.storeRouter h col)).storeQ = fs ∧ ∀ c x, memGet (u.core c).mem x = memGet (s.core c).mem x
    let refused (u : State) : Prop := u.vreg f.vat (.ctr i 0) = word ∧ ∃ x, u.reports = s.reports ++ [x] ∧ x.vat = f.vat ∧ x.status = .vatfault
    let counted (u : State) : Prop := u.vfld f.vat .meshStatus 63 32 = min (s.vfld f.vat .meshStatus 63 32 + 1) (2 ^ 32 - 1)
    (leAt f.data 0 1 = 1 →
      (s.ownsEntry h col f = true → s.isBarrier f.vat i = false → ∃ u, exec (.storeAdd h col) s = .next u ∧ taken u ∧
        (let n := (word.toNat % 2 ^ 32 + leAt f.data 6 2) % 2 ^ 32
         u.vfld f.vat (.ctr i 0) 31 0 = n ∧
         (s.vfld f.vat (.ctr i 1) 36 36 = 1 → ∃ j ∈ kget [] u.notifies (h, col), j.vat = f.vat ∧ j.vid = i ∧ j.value = n))) ∧
      (s.ownsEntry h col f = true → s.isBarrier f.vat i = true → ∃ u, exec (.storeAdd h col) s = .next u ∧ taken u ∧ refused u) ∧
      (s.ownsEntry h col f = false → ∃ u, exec (.storeAdd h col) s = .next u ∧ taken u ∧ refused u ∧ counted u)) ∧
    (leAt f.data 0 1 = 2 →
      (s.ownsEntry h col f = true → s.isBarrier f.vat i = true →
        (leAt f.data 1 1 % 2 = word.toNat / 2 ^ 33 % 2 → ∃ u, exec (.storeArrive h col) s = .next u ∧ taken u ∧
          (word.toNat % 2 ^ 16 + 1 ≠ word.toNat / 2 ^ 34 % 2 ^ 16 →
            u.vfld f.vat (.ctr i 0) 15 0 = (word.toNat % 2 ^ 16 + 1) % 2 ^ 16 ∧ u.vfld f.vat (.ctr i 0) 33 33 = word.toNat / 2 ^ 33 % 2) ∧
          (word.toNat % 2 ^ 16 + 1 = word.toNat / 2 ^ 34 % 2 ^ 16 → u.vfld f.vat (.ctr i 0) 15 0 = 0 ∧
            u.vfld f.vat (.ctr i 0) 33 33 = 1 - word.toNat / 2 ^ 33 % 2 ∧ (u.ctr f.vat i).rounds = (s.ctr f.vat i).rounds + 1)) ∧
        (leAt f.data 1 1 % 2 ≠ word.toNat / 2 ^ 33 % 2 → ∃ u, exec (.storeArrive h col) s = .next u ∧ taken u ∧ refused u ∧ counted u)) ∧
      (s.ownsEntry h col f = false → ∃ u, exec (.storeArrive h col) s = .next u ∧ taken u ∧ refused u ∧ counted u))) ∧
  (∀ (s : State) (c : CoreId) (f : Flit) (fs : List Flit), (s.core c).notifyQ = f :: fs →
    let i := flitVid f
    let value : Word32 := BitVec.ofNat 32 (leAt f.data 8 4)
    ∃ u, exec (.notify c) s = .next u ∧ (u.core c).notifyQ = fs ∧
      kget {} (u.core c).mirrors i = { value := value, gen := leAt f.data 1 1 % 2 = 1, arrived := 0 } ∧
      (∀ t target, ((s.core c).thread t).status = .waitV i target → (value - target).toNat < 2 ^ 31 → ((u.core c).thread t).status = .ready) ∧
      (∀ t target, ((s.core c).thread t).status = .waitV i target → 2 ^ 31 ≤ (value - target).toNat →
        ((u.core c).thread t).status = .waitV i target) ∧
      (∀ t, ((s.core c).thread t).status = .waitG i ∨ ((s.core c).thread t).status = .heldArrive i → ((u.core c).thread t).status = .ready) ∧
      (∀ t r, ((u.core c).thread t).sreg r = ((s.core c).thread t).sreg r) ∧ (u.core c).mem = (s.core c).mem)

/-- R180, R348, R350: a core whose threads are all idle, or have waited for THRESH, is marked, unless THRESH is 0; a region that may lend raises its neighbour
by one lent step; a powered region's step moves by one toward its target, and no other region's. -/
def Obligations.LendingAndSteps : Prop :=
  (∀ (s : State) (c : CoreId) (v : VatId), s.vatOf c = some v → s.vfld v .vatLend 15 0 ≠ 0 → s.regionRuns (regionOf c) = true →
    (∀ p ∈ (s.core c).threads, p.2.restful (s.winTicks (10 * s.vfld v .vatLend 15 0)) (s.tickOf (halfOf (regionOf c))) = true) →
    exec (.coreIdleMark c) s = .next (s.modCore c (fun k => { k with idleMark := true }))) ∧
  (∀ (s : State) (c : CoreId) (v : VatId), s.vatOf c = some v → s.vfld v .vatLend 15 0 = 0 → exec (.coreIdleMark c) s = .next s) ∧
  (∀ (s : State) (a b : Region), s.mayLend a b = true → ∃ u, exec (.lendStep a b) s = .next u ∧ u.lenders b = s.lenders b ++ [a] ∧
    u.rfld (.pwrRegion b) 23 23 = 1 ∧ u.cores = s.cores) ∧
  (∀ (s : State) (r : Region), s.regionOn r = true → ∃ u, exec (.temperStep r) s = .next u ∧
    (s.stepOf r < s.stepTarget r → s.stepOf r < 15 → u.stepOf r = s.stepOf r + 1) ∧
    (s.stepTarget r < s.stepOf r → u.stepOf r = s.stepOf r - 1) ∧ (s.stepOf r = s.stepTarget r → u.stepOf r = s.stepOf r) ∧
    (∀ q, q ≠ r → u.stepOf q = s.stepOf q) ∧ u.cores = s.cores)

/-! ## Faults, stops and vat commands (R197 to R200, R259 to R263, R361) -/

/-- R199, R200: a report that arrives while the record is clear fills it, with the status, the place, the thread's index and the tick; a later one is counted
and leaves them; either makes a running, quiescing or quiesced vat stop; when that stop is due VAT_STOP ends the issue of every core of the vat, sets
VAT_STATUS.STATE to STOPPED and raises the host's interrupt cause; VAT_FAULT_CLEAR clears both words of the record. -/
def Obligations.FaultRecordAndStop : Prop :=
  (∀ (s : State) (v : VatId) (i k : Nat) (r : FaultReport), (s.reportsOf v)[i]? = some (r, k) →
    ∃ u, exec (.faultReport v i) s = .next u ∧ u.reports = s.reports.eraseIdx k ∧
      (s.vfld v (.vatFault 0) 7 0 = 0 →
        u.vfld v (.vatFault 0) 7 0 = statusCode r.status ∧ u.vfld v (.vatFault 0) 16 8 = r.lx % 512 ∧ u.vfld v (.vatFault 0) 25 17 = r.ly % 512 ∧
        (r.source = true → u.vfld v (.vatFault 0) 29 26 = r.thread % 16 ∧ u.vfld v (.vatFault 0) 40 30 = r.pc % 2048 ∧
          u.vfld v (.vatFault 0) 41 41 = 1) ∧
        u.vfld v (.vatFault 1) 47 0 = r.tick % 2 ^ 48) ∧
      (s.vfld v (.vatFault 0) 7 0 ≠ 0 → u.vfld v (.vatFault 0) 57 42 = min (s.vfld v (.vatFault 0) 57 42 + 1) 65535 ∧
        u.vfld v (.vatFault 0) 41 0 = s.vfld v (.vatFault 0) 41 0) ∧
      (s.vstate v ∈ [2, 3, 4] → (u.vat v).stopWait = true) ∧ u.cores = s.cores) ∧
  (∀ (s : State) (v : VatId), (s.vat v).stopDue = true → s.vstate v ∈ [2, 3, 4] → ∃ u, exec (.vatStop v) s = .next u ∧ u.vstate v = 5 ∧
    u.vfld v .vatIrq 16 16 = 1 ∧ (u.vat v).stopDue = false ∧ (u.vat v).gateOff = true ∧
    (∀ c, s.vatOf c = some v → (∃ k, kfind s.cores c = some k) → (u.core c).halted = true ∧ (u.core c).mem = (s.core c).mem) ∧
    (∀ t : Site, s.vatOf t.core = some v → u.canIssue t = false)) ∧
  (∀ (s : State) (v : VatId), (s.vat v).stopDue = false → exec (.vatStop v) s = .next s) ∧
  (∀ (s : State) (v : VatId), s.hostReady = true → ∃ u, exec (.vatFaultClear v) s = .next u ∧ (∀ w, u.vreg v (.vatFault w) = 0) ∧
    (∀ r, (∀ w, r ≠ .vat v (.vatFault w)) → u.getReg r = s.getReg r) ∧ u.cores = s.cores)

/-- R37, R186, R259, R260, R261: START, QUIESCE and RESUME are accepted in their states and change VAT_STATUS.STATE; START makes thread 0 of every core
of the vat ready at index 0; any other state, or for START and RESUME a region that is not ready, refuses the command; a quiet vat that is quiescing becomes
QUIESCED, with its interrupt cause. No commit of the vat is pending and no stop is due. -/
def Obligations.VatCommandResult : Prop :=
  ∀ (s : State) (v : VatId), kfind s.staged (some v) = none → (s.vat v).stopDue = false →
    let u := s.modVat v (fun w => { w with cmd := 0 })
    let refused : Result := .next (u.refuseCmd v)
    ((s.vat v).cmd = 1 →
      (s.vstate v = 1 → s.regionsReady v = true → ∃ x, exec (.start v) s = .next x ∧ x.vstate v = 2 ∧ (x.vat v).elapsed = 0 ∧ (x.vat v).cmd = 0 ∧
        (∀ c, s.vatOf c = some v → ((x.core c).thread 0).status = .ready ∧ ((x.core c).thread 0).pc = 0 ∧ (x.core c).halted = false ∧
          (x.core c).mem = (s.core c).mem)) ∧
      ((s.vstate v ≠ 1 ∨ s.regionsReady v = false) → exec (.start v) s = refused)) ∧
    ((s.vat v).cmd = 2 →
      (s.vstate v = 2 → ∃ x, exec (.quiesce v) s = .next x ∧ x.vstate v = 3 ∧ x.cores = s.cores) ∧
      (s.vstate v ≠ 2 → exec (.quiesce v) s = refused)) ∧
    ((s.vat v).cmd = 3 →
      (s.vstate v = 4 → s.regionsReady v = true → ∃ x, exec (.resume v) s = .next x ∧ x.vstate v = 2 ∧ (x.vat v).edges = (s.vat v).edges + 1) ∧
      ((s.vstate v ≠ 4 ∨ s.regionsReady v = false) → exec (.resume v) s = refused)) ∧
    (s.vstate v = 3 → s.quiet v = true → ∃ x, exec (.quiesced v) s = .next x ∧ x.vstate v = 4 ∧ x.vfld v .vatIrq 18 18 = 1 ∧ x.cores = s.cores) ∧
    ((s.vat v).cmd ≠ 1 → exec (.start v) s = .next s)

/-- R58, R67, R259, R262, R263: RESET stops issue and, once the traffic has drained and its cores are quiet, RESET_DONE leaves the vat LOADED with its cores'
registers, tiles and scratchpad zero, its cream as it was and its KV_SEQ words zero; RELEASE takes a FREE or LOADED vat, and RELEASE_DONE leaves it FREE, holding
no region, with the cream and scratchpad of its regions zero. -/
def Obligations.ResetAndRelease : Prop :=
  ∀ (s : State) (v : VatId),
    (kfind s.staged (some v) = none → (s.vat v).stopDue = false → (s.vat v).cmd = 4 → s.vstate v ∈ [1, 2, 3, 4, 5] →
      ∃ u, exec (.reset v) s = .next u ∧ u.vstate v = 6 ∧ (u.vat v).wiping = .reset ∧
        ∀ t : Site, s.vatOf t.core = some v → u.canIssue t = false) ∧
    (kfind s.staged (some v) = none → (s.vat v).stopDue = false → (s.vat v).cmd = 5 → s.vstate v ∈ [0, 1] →
      ∃ u, exec (.release v) s = .next u ∧ u.vstate v = 6 ∧ (u.vat v).wiping = .release) ∧
    (s.vstate v = 6 → (s.vat v).wiping = .reset → s.drained v = true →
      (∀ c, s.holds v (regionOf c) = true → (s.core c).macRun = none ∧ (s.core c).macWait = none ∧ (s.core c).moves = [] ∧ (s.core c).dmaActive = []) →
      ∃ u, exec (.resetDone v) s = .next u ∧ u.vstate v = 1 ∧ u.vfld v .vatIrq 18 18 = 1 ∧ (u.vat v).wiping = .none ∧
        ∀ c, s.holds v (regionOf c) = true → (∃ k, kfind s.cores c = some k) →
          (∀ t r, ((u.core c).thread t).sreg r = 0 ∧ ((u.core c).thread t).status = .idle) ∧
          (∀ x, 0x200000 ≤ x → x < 0x310000 → memGet (u.core c).mem x = 0) ∧
          (∀ x, x < 0x200000 → memGet (u.core c).mem x = memGet (s.core c).mem x)) ∧
    (s.vstate v = 6 → (s.vat v).wiping = .reset → s.drained v = true →
      (∀ c, s.holds v (regionOf c) = true → (s.core c).macRun = none ∧ (s.core c).macWait = none ∧ (s.core c).moves = [] ∧ (s.core c).dmaActive = []) →
      ∃ u, exec (.resetDone v) s = .next u ∧ ∀ i, u.vreg v (.kvSeq i) = 0) ∧
    (s.vstate v = 6 → (s.vat v).wiping = .release →
      ∃ u, exec (.releaseDone v) s = .next u ∧ u.vstate v = 0 ∧ u.vfld v .vatIrq 18 18 = 1 ∧ (u.vat v).ingot = none ∧
        (∀ w, u.vreg v (.vatRegions w) = 0) ∧
        ∀ c, s.holds v (regionOf c) = true → (∃ k, kfind s.cores c = some k) → ∀ x, x < 0x300000 → memGet (u.core c).mem x = 0)

/-! ## Memory errors and recipe reports (R24, R66, R111, R112, R363, R365) -/

/-- R24, R66, R111, R112, R363, R365: a double-bit error met in the scratchpad sets the core's flag, reports its vat for a hardware stop and rewrites the word with
zeros; burnish of a line corrects its single-bit errors and leaves the data; the retirement of a core reports its vat for a hardware stop; a recipe report raises
its cause and the count, and the first one of a clear entry records the place and the tick. -/
def Obligations.ErrorsAndRecipes : Prop :=
  (∀ (s : State) (c : CoreId) (a : Nat) (v : VatId), (s.core c).reach a 1 = some .spm → s.regionRuns (regionOf c) = true → s.vatOf c = some v →
    (s.core c).eccLog = [] → (s.core c).wb ≤ 3072 → ∃ u x, exec (.memEccfatal c a) s = .next u ∧ (u.core c).eccFatal = true ∧
      (∀ j, j < 4 → memGet (u.core c).mem (a / 4 * 4 + j) = 0) ∧
      (∀ y, (y < a / 4 * 4 ∨ a / 4 * 4 + 4 ≤ y) → memGet (u.core c).mem y = memGet (s.core c).mem y) ∧
      u.reports = s.reports ++ [x] ∧ x.vat = v ∧ x.status = .eccfatal ∧ x.hardware = true) ∧
  (∀ (s : State) (c : CoreId) (line : Fin 3840) (last : Bool), s.regionRuns (regionOf c) = true → (s.core c).eccDouble = [] → (s.core c).fixLog = [] →
    (s.core c).eccSingle.length ≤ 16 →
    ∃ u, exec (.burnishRead (.core c line) last) s = .next u ∧ (u.core c).mem = (s.core c).mem ∧
      (let a := if line.val < 3072 then 512 * line.val else 0x200000 + 512 * (line.val - 3072)
       ∀ w, w ∈ (u.core c).eccSingle ↔ w ∈ (s.core c).eccSingle ∧ eccTouches a 512 w = false) ∧ u.regs = s.regs ∧ u.reports = s.reports) ∧
  (∀ (s : State) (c : CoreId) (v : VatId), s.regionOn (regionOf c) = true → s.regionRetired (regionOf c) = false → s.defective (s.posOf c) = false →
    s.vatOf c = some v → ∃ u x, exec (.coreRetired c) s = .next u ∧ x ∈ u.reports ∧ x.vat = v ∧ x.status = .vatfault ∧ x.hardware = true) ∧
  (∀ (s : State) (v : VatId) (i k : Nat) (r : RecipeReport),
    ((s.recipes.zip (upTo s.recipes.length)).filter (fun p => p.1.vat = v))[i]? = some (r, k) →
    let n : Fin 4096 := ⟨r.tag.toNat, r.tag.isLt⟩
    ∃ u, exec (.recipeReport v i) s = .next u ∧ u.recipes = s.recipes.eraseIdx k ∧ u.vfld v (.recipe n 0) r.cause r.cause = 1 ∧
      u.vfld v (.recipe n 0) 31 16 = min (s.vfld v (.recipe n 0) 31 16 + 1) 65535 ∧
      u.vfld v (.recipeSummary ⟨n.val / 64, by have := n.isLt; omega⟩) (n.val % 64) (n.val % 64) = 1 ∧
      (s.vfld v (.recipe n 0) 3 0 = 0 → u.vfld v (.recipe n 0) 40 32 = r.core.lx ∧ u.vfld v (.recipe n 0) 49 41 = r.core.ly ∧
        u.vfld v (.recipe n 1) 47 0 = r.tick % 2 ^ 48 ∧ u.vfld v .vatIrq 17 17 = 1))

/-! ## Regions (R12, R257, R263, R346 to R349, R367, R372, R373) -/

/-- R346, R347, R349, R373: a half's sequencer takes the region at the head of its queue and raises it; with its rail up a region that kept its cream runs
at step 0 and one that was reset relocks, then runs at step 10; an aborted power-up waits and returns to the head of the queue; a second abort leaves the
region off, to be confirmed at the next start. -/
def Obligations.RegionWakes : Prop :=
  (∀ (s : State) (h : Half) (t : Nat) (r : Region) (q : List (Nat × Region)), s.wakes h = (t, r) :: q → 2 ≤ s.modState → s.modState < 6 →
    ∃ u, exec (.regionPowerUpStart h) s = .next u ∧ u.wakes h = q ∧ u.pow.powering = s.pow.powering ++ [r] ∧
      u.rfld (.pwrWake (halfIndex h)) 7 0 = q.length % 256 ∧ u.cores = s.cores) ∧
  (∀ (s : State) (r : Region), r ∈ s.pow.powering → r ∉ s.pow.offPending →
    (r ∉ s.pow.needRelock → ∃ u, exec (.regionPowerUpEnd r) s = .next u ∧ u.regionOn r = true ∧ u.stepOf r = 0 ∧ r ∉ u.pow.powering ∧
      u.rfld (.pwrRegion r) 15 15 = 0 ∧ u.cores = s.cores) ∧
    (r ∈ s.pow.needRelock → ∃ u, exec (.regionPowerUpEnd r) s = .next u ∧ r ∈ u.pow.relocking ∧ r ∉ u.pow.needRelock ∧
      u.regionOn r = s.regionOn r ∧ u.cores = s.cores) ∧
    (s.rfld (.pwrGroup (groupOf r)) (6 - r.val % 2) (6 - r.val % 2) = 1 →
      (r ∉ s.pow.abortedOnce → ∃ u, exec (.inrushAbort r) s = .next u ∧ r ∈ u.pow.aborted ∧ r ∉ u.pow.powering ∧ u.cores = s.cores) ∧
      (r ∈ s.pow.abortedOnce → ∃ u, exec (.inrushAbort r) s = .next u ∧ r ∈ u.pow.confirm ∧ r ∉ u.pow.powering ∧
        u.rfld .pwrState 4 4 = 1 ∧ u.rfld (.pwrRegion r) 15 15 = 0))) ∧
  (∀ (s : State) (r : Region), r ∈ s.pow.relocking → ∃ u, exec (.relock r) s = .next u ∧ u.regionOn r = true ∧ u.stepOf r = 10 ∧
    r ∉ u.pow.relocking ∧ u.cores = s.cores) ∧
  (∀ (s : State) (r : Region), r ∈ s.pow.aborted → s.modState ≠ 6 → ∃ u, exec (.wakeRetry r) s = .next u ∧ r ∉ u.pow.aborted ∧
    u.wakes (halfOf r) = (s.now, r) :: s.wakes (halfOf r))

/-- R257, R344, R367, R372: a write of VAT_REGIONS in FREE, LOADED or QUIESCED takes the word and queues the new regions to wake, and is ignored with
CMD_REFUSED in another state or where it names a region of another vat; a region with 33 defects is retired, its vat stopped by hardware stop; a write of
RETIRE_NOW retires the pending regions of its group. -/
def Obligations.RegionOwnership : Prop :=
  (∀ (s : State) (v : VatId) (w : Fin 3) (value : Word64), s.hostReady = true →
    let added := (allFin 192).filter (fun r => r.val / 64 = w.val && bitAt value (r.val % 64) && !s.holds v r)
    (s.vstate v ∈ [0, 1, 4] → (∀ r ∈ added, s.regionRetired r = false ∧ s.ownerOf r = none) →
      ∃ u, exec (.vatRegionsWrite v w value) s = .next u ∧ u.vreg v (.vatRegions w) = value) ∧
    ((s.vstate v ∉ [0, 1, 4] ∨ ∃ r ∈ added, s.regionRetired r = true ∨ ∃ x, s.ownerOf r = some x) →
      exec (.vatRegionsWrite v w value) s = .next (s.putV v .vatStatus 3 3 1))) ∧
  (∀ (s : State) (r : Region) (v : VatId), 33 ≤ s.rfld (.pwrRegion r) 22 17 → s.regionRetired r = false → s.ownerOf r = some v →
    ∃ u x, exec (.regionRetired r) s = .next u ∧ u.regionRetired r = true ∧ u.regionOn r = false ∧ r ∈ u.pow.fenced ∧
      x ∈ u.reports ∧ x.vat = v ∧ x.status = .vatfault ∧ x.hardware = true) ∧
  (∀ (s : State) (g : Group) (r : Region), 2 ≤ s.modState → s.modState ≠ 7 → groupOf r = g →
    s.rfld (.pwrGroup g) (7 + r.val % 2) (7 + r.val % 2) = 1 → ∃ u, exec (.retireNow g) s = .next u ∧ u.regionRetired r = true)


/-! ## Streams: budgets, fills, commits, skims and prefill (R39 to R41, R121, R134, R140, R141, R240 to R248, R268 to R273) -/

/-- R52, R269, R270, R272: at a budget window's first tick every customer of the vat has its budget in force, and one with a limit its balance at
min(balance, 0) + budget, and the next window is laid out; before a fill the windows that are over get their refills, and without one nothing changes;
a fill of the pail that stands in the last stage, its commits applied, writes the pail's header and waits for its acknowledgement, which ends the wait and
puts the header's bytes, in flits, into the header core's hand-off buffer; a pail that is not there is not filled. -/
def Obligations.BudgetsAndFills : Prop :=
  (∀ (s : State) (v : VatId), s.vstate v ∈ [2, 3, 4] → windowOver (s.vat v).winStart (s.vat v).winLen s.now = true →
    ∃ u, exec (.budgetWindow v) s = .next u ∧ (u.vat v).winStart = ((s.vat v).winStart + (s.vat v).winLen) % 2 ^ 48 ∧
      (u.vat v).winLen = s.winTicks (1000 * s.vfld v .vatLadle 15 0) ∧
      (∀ c ∈ s.customersOf v,
        let b := s.rfld (.ladleCust c 0) 31 0
        (u.cust c).eff.toNat = b ∧ (b ≠ 2 ^ 32 - 1 → min (s.balance c) 0 + b < 2 ^ 31 → u.balance c = min (s.balance c) 0 + b)) ∧
      u.cores = s.cores ∧ u.stackMem = s.stackMem) ∧
  (∀ (s : State) (v : VatId), s.vstate v ∈ [2, 3, 4] → windowOver (s.vat v).winStart (s.vat v).winLen s.now = false →
    exec (.budgetWindow v) s = .next s ∧ s.settleWindows v = s) ∧
  (∀ (s : State) (v : VatId) (p : Nat),
    let r := s.settleWindows v
    r.vstate v = 2 ∨ r.vstate v = 3 → r.chained v = false → (r.ring v).length ≠ 0 →
    (pailAt (r.ring v).length (r.vat v).edges ((r.ring v).length - 1) = p → (r.pail v p).commitsDue = [] →
      (r.pail v p).filledAt ≠ some (r.vat v).edges →
      ∃ u k, exec (.fill v p) s = .next u ∧ (u.pail v p).headerWait = true ∧ (u.pail v p).filledAt = some (r.vat v).edges ∧
        (u.pail v p).header = State.headerOf { u with freeCtr := k } v p) ∧
    ((pailAt (r.ring v).length (r.vat v).edges ((r.ring v).length - 1) ≠ p ∨ (r.pail v p).commitsDue ≠ [] ∨
      (r.pail v p).filledAt = some (r.vat v).edges) → exec (.fill v p) s = .next r)) ∧
  (∀ (s : State) (v : VatId) (p : Nat), (s.pail v p).headerWait = true →
    let t := s.setPail v p { s.pail v p with headerWait := false }
    ((s.vat v).ingot.bind IngotTable.headerAt = none → exec (.headerAcknowledge v p) s = .next t) ∧
    (∀ c a, (s.vat v).ingot.bind IngotTable.headerAt = some (c, a) → exec (.headerAcknowledge v p) s =
      .next (t.modCore c (fun k => { k with handoff := k.handoff ++ headerFlits v a (s.pail v p).header })))) ∧
  (∀ (v : VatId) (a : Nat) (bs : List Byte), ((headerFlits v a bs).map Flit.data).flatten = bs ∧ ∀ f ∈ headerFlits v a bs, f.data.length ≤ 64)

/-- R41, R134, R268: a commit accepts the longest prefix of the drafts that equals the tokens sampled; a stream that goes on has its Lc raised by the
number of its new tokens, and one that meets a stop token, its token limit or its position limit ends, its pages and its reservation given back; the
budget windows that are over get their refills first; a module of a chain (log entry 92) sends the report on. -/
def Obligations.CommitAdvancesStream : Prop :=
  (∀ ds ts : List Word32, ts.length = ds.length + 1 →
    let a := acceptedOf ds ts
    a ≤ ds.length ∧ ds.take a = ts.take a ∧ (a < ds.length → ds[a]? ≠ ts[a]?)) ∧
  (∀ (s : State) (v : VatId) (st : StreamId) (x : Stream) (p i : Nat) (sampled : List Word32) (tick : Nat),
    s.chained v = false →
    let r := s.settleWindows v
    r.stream v st = some x → x.seat = some (p, i) → x.target = none → x.ended = false → r.vstate v = 2 ∨ r.vstate v = 3 →
    st ∈ (r.pail v p).commitsDue → sampled.length = 1 + x.drafts.length → (r.vat v).handing = false → r.mirroring v = false →
    missedLayers x = [] →
    let toks := sampled.take (acceptedOf x.drafts sampled + 1)
    ∃ u, exec (.commitReport v st sampled tick) s = .next u ∧
      ((∀ t ∈ toks, t ∉ x.stops) → (x.maxNew = 0 ∨ x.newTokens + toks.length < x.maxNew) → x.lc + toks.length < x.limit → x.atLimit = false →
        ∃ y, u.stream v st = some y ∧ y.lc = x.lc + toks.length ∧ y.newTokens = x.newTokens + toks.length ∧ y.ended = false) ∧
      ((∃ t ∈ toks, t ∈ x.stops) ∨ (x.maxNew ≠ 0 ∧ x.maxNew ≤ x.newTokens + toks.length) ∨ x.limit ≤ x.lc + toks.length →
        ∀ y, u.stream v st = some y → y.ended = true ∧ y.pages = [] ∧ y.reserved = 0)) ∧
  (∀ (s : State) (v : VatId) (st : StreamId) (sampled : List Word32) (tick : Nat),
    (s.chained v = false → (s.settleWindows v).stream v st = none → exec (.commitReport v st sampled tick) s = .next (s.settleWindows v)) ∧
    (s.chained v = true → exec (.commitReport v st sampled tick) s = .next (s.sendReport v st sampled tick)))

/-- R140, R141, R248, R255: an idle stream asks for a skim and begins its copy where the vat has the slots; when the copy is done its entries name the
slots, its reservation is free and cream is as it was; a restore that lost nothing ends with the stream in its new pages and its slots free, and a skim asked for
meanwhile then begins; one that lost a slot, outside a mirrored pair, ends the stream. -/
def Obligations.SkimAndRestore : Prop :=
  ∀ (s : State) (v : VatId) (st : StreamId) (x : Stream), s.stream v st = some x →
    (s.vfld v .kvConf 39 28 ≠ 0 → x.skimAsked = none → x.seat = none → x.phase = .decoding → x.skimmed = false → x.skimming = false →
      x.restoring = false → x.ended = false → s.handedOver v x = true →
      windowOver x.idleSince (if x.idleTicks = 0 then s.idleWin v else x.idleTicks) s.now = true →
      let s1 := s.setStream v st { x with skimAsked := some none }
      let need := (x.lc + 63) / 64
      (need ≤ (s1.freeSkimSlots v).length →
        ∃ u y, exec (.skimIdle v st) s = .next u ∧ u.stream v st = some y ∧ y.skimming = true ∧ y.skimSlots = (s1.freeSkimSlots v).take need ∧
          y.lc = x.lc ∧ u.cores = s.cores) ∧
      ((s1.freeSkimSlots v).length < need →
        ∃ u y, exec (.skimIdle v st) s = .next u ∧ u.stream v st = some y ∧ y.skimming = false ∧ y.skimAsked = none ∧ u.cores = s.cores)) ∧
    (x.skimming = true →
      ∃ u, exec (.skimCopyDone v st) s = .next u ∧ u.cores = s.cores ∧ u.stream v st = some { x with
        pages := x.skimSlots.map (fun n => { number := n, skimmed := true }), reserved := 0, skimming := false, skimAsked := none }) ∧
    (x.restoring = true →
      let size := 64 * s.kvHeads v * s.recordBytes v
      ((∀ k ∈ x.skimSlots, ∀ n ∈ s.kvNumbered v, s.stackFails (s.skimAddr v k n.1) size = false) →
        ∃ w : State, exec (.restoreDone v st) s = .next (w.trySkim v st) ∧ (x.skimAsked = none → w.trySkim v st = w) ∧
          w.stream v st = some { x with pages := x.incoming, incoming := [], restoring := false, skimSlots := [], idleSince := s.now,
                                        idleTicks := s.idleWin v } ∧ w.tickNorth = s.tickNorth) ∧
      (s.mirroring v = false → (∃ k ∈ x.skimSlots, ∃ n ∈ s.kvNumbered v, s.stackFails (s.skimAddr v k n.1) size = true) →
        exec (.restoreDone v st) s = .next (s.endStream v st .eccfatal [] s.now)))

/-- R121, R240, R242 to R248, R256, R323: one waiting request that fits starts a pass with its reservation made and the vat's presses busy; the pass whose
reads have all come ends, is counted and frees them; a stage's hand-off is noted with its tick for every stream of its group, and a rewrite after a missed
pass clears that stage's miss; a one-token prompt that has been read makes the stream ready at Lc = 0; a prompt that cannot be read, or holds a token
outside the vocabulary, ends the stream. -/
def Obligations.PrefillAndPrompts : Prop :=
  (∀ (s : State) (v : VatId) (st : StreamId) (x : Stream) (g0 : Nat),
    let r := s.settleWindows v
    r.mayPass v = true → r.waitingPrefill v = [st] → r.stream v st = some x → (∀ e ∈ (r.vat v).streams, chunking e.2 = false) →
    x.prefilled = 0 → x.reserved = 0 → 1 ≤ x.promptLen → x.promptLen ≤ r.limitOf v x → x.promptLen - 1 ≤ r.vfld v .vatPrefill 13 0 →
    r.findG0 v none (pagesFor (r.limitOf v x)) = some g0 →
    ∃ u y, exec (.prefillGroup v) s = .next u ∧ (u.vat v).pass = some [st] ∧ u.stream v st = some y ∧ y.reserved = (r.limitOf v x + 63) / 64 ∧
      y.limit = r.limitOf v x ∧ y.g0 = g0 ∧ y.chunk = x.promptLen - 1 ∧ (∀ n, s.pressOf v n = true → u.rfld (.glbPress n) 8 8 = 1) ∧
      u.cores = s.cores) ∧
  (∀ (s : State) (v : VatId), (s.settleWindows v).mayPass v = false → exec (.prefillGroup v) s = .next (s.settleWindows v)) ∧
  (∀ (s : State) (v : VatId), (s.vat v).passTrips ≠ 0 → exec (.prefillPassDone v) s = .next s) ∧
  (∀ (s : State) (v : VatId) (sts : List StreamId), (s.vat v).pass = some sts → (s.vat v).passTrips = 0 →
    (∀ st ∈ sts, ∀ x, s.stream v st = some x → x.promptDue = false) →
    ∃ u, exec (.prefillPassDone v) s = .next u ∧ (u.vat v).pass = none ∧
      u.vfld v .vatPrefillStat 31 0 = min (s.vfld v .vatPrefillStat 31 0 + 1) (2 ^ 32 - 1) ∧
      (∀ n, s.pressOf v n = true → u.rfld (.glbPress n) 8 8 = 0) ∧
      ((s.vat v).pressStale = true → u.vfld v .vatPrefill 18 18 = 1) ∧
      ((s.vat v).pressStale = false → u.vreg v .vatPrefill = s.vreg v .vatPrefill) ∧ u.cores = s.cores) ∧
  (∀ (s : State) (v : VatId) (st : StreamId) (stage j : Nat) (x : Stream) (sg : StageInfo), s.stream v st = some x →
    layerIndex (s.ring v) stage = some j → (s.ring v)[stage]? = some sg → sg.kvStage.isSome = true → s.vstate v = 2 ∨ s.vstate v = 3 →
    x.ended = false → x.firstPass = true → x.promptDue = false → x.chunk ≠ 0 → x.phase ≠ .awaitPrefill → s.hasRim v = true →
    ((∀ h ∈ x.handoffs, h.1 ≠ j) → j ∉ x.rewrites → (∀ i ∈ s.handoffGroup v st, ∀ z, s.stream v i = some z → z.promptDue = false) →
      st ∈ s.handoffGroup v st ∧ ∃ u, exec (.handoffComplete v st stage) s = .next u ∧
        ∀ i ∈ s.handoffGroup v st, ∀ z, s.stream v i = some z →
          ∃ y, u.stream v i = some y ∧ z.handoffs ++ [(j, s.now)] <+: y.handoffs) ∧
    (j ∈ x.rewrites → ∃ u y, exec (.handoffComplete v st stage) s = .next u ∧ u.stream v st = some y ∧
      y.rewrites = x.rewrites.filter (fun k => k ≠ j))) ∧
  (∀ (s : State) (v : VatId) (st : StreamId) (x : Stream) (g : IngotTable) (toks : List Word32), s.stream v st = some x → x.promptDue = true →
    x.promptTrips = 0 → x.ended = false → s.host.down (s.portOf x.queue) = false → (s.vat v).ingot = some g →
    (toks.length = x.promptLen → (∀ t ∈ toks, t.toNat < g.vocab) → x.phase = .awaitPrompt → x.skimAsked = none →
      ∃ u y, exec (.promptRead v st true toks) s = .next u ∧ u.stream v st = some y ∧ y.phase = .decoding ∧ y.lc = 0 ∧ y.prompt = toks ∧
        y.readyTick = s.now ∧ u.regs = s.regs ∧ u.cores = s.cores) ∧
    (toks.length = x.promptLen → (∃ t ∈ toks, g.vocab ≤ t.toNat) →
      exec (.promptRead v st true toks) s = .next (s.endStream v st .badentry [] s.now)) ∧
    exec (.promptRead v st false toks) s = .next (s.endStream v st .address [] s.now))

/-! ## Queue pairs and host ports (R265 to R267, R315, R320 to R329, R402) -/

/-- R265, R266, R315, R320, R321, R327 to R329, R400: a doorbell of 32 bits moves its pointer up to the queue's size and above it sets ERR; other widths
and a disabled pair change nothing; enabling a pair in order starts its pointers at 0 and PHASE at 1 and refuses with ERR, also where the vat or the customer
of an active pair would change; disabling withdraws nothing; a
held completion is written when there is room; a coalescing window that is over closes or signals; a port that goes down is marked, and on coming
up sends each vector pending. -/
def Obligations.QueueRegistersAndPorts : Prop :=
  (∀ (s : State) (n : QueueId) (x : Word32), s.queEn n = true →
    (x.toNat ≤ s.rfld (.queSq n 1) 15 0 → exec (.sqDoorbell n true x) s = .next (s.modQp n (fun q => { q with sqTail := x.toNat }))) ∧
    (s.rfld (.queSq n 1) 15 0 < x.toNat → exec (.sqDoorbell n true x) s = .next (s.putR (.queSq n 1) 17 17 1)) ∧
    ((s.qp n).held = [] → x.toNat ≤ s.rfld (.queCq n 1) 15 0 →
      exec (.cqDoorbell n true x) s = .next (s.modQp n (fun q => { q with cqHead := x.toNat }))) ∧
    (s.rfld (.queCq n 1) 15 0 < x.toNat → exec (.cqDoorbell n true x) s = .next (s.putR (.queSq n 1) 17 17 1)) ∧
    exec (.sqDoorbell n false x) s = .next s ∧ exec (.cqDoorbell n false x) s = .next s) ∧
  (∀ (s : State) (n : QueueId) (x : Word32), s.queEn n = false → exec (.sqDoorbell n true x) s = .next s) ∧
  (∀ (s : State) (n : QueueId) (w : Word64), s.hostReady = true → bitAt w 0 = true → s.queEn n = false → s.activeOf n = 0 →
    (s.rfld (.queSq n 0) 11 0 = 0 → s.rfld (.queCq n 0) 11 0 = 0 → 15 ≤ s.rfld (.queSq n 1) 15 0 → 15 ≤ s.rfld (.queCq n 1) 15 0 →
      ∃ u, exec (.queEnable n w) s = .next u ∧ u.rfld (.que n) 26 0 = fld w 26 0 ∧ u.rfld (.queSq n 1) 47 32 = 0 ∧
        u.rfld (.queCq n 1) 47 32 = 0 ∧ u.rfld (.queCq n 1) 28 28 = 1 ∧ (u.qp n).sqTail = 0 ∧ (u.qp n).cqHead = 0 ∧ u.vats = s.vats) ∧
    (s.rfld (.queSq n 0) 11 0 ≠ 0 ∨ s.rfld (.queCq n 0) 11 0 ≠ 0 ∨ s.rfld (.queSq n 1) 15 0 < 15 ∨ s.rfld (.queCq n 1) 15 0 < 15 →
      exec (.queEnable n w) s = .next (s.putR (.queSq n 1) 17 17 1))) ∧
  (∀ (s : State) (n : QueueId) (w : Word64), s.hostReady = true → bitAt w 0 = true → s.queEn n = false → s.activeOf n ≠ 0 →
    exec (.queEnable n w) s = .next (s.putR (.queSq n 1) 17 17 1)) ∧
  (∀ (s : State) (n : QueueId) (w : Word64), s.hostReady = true → bitAt w 0 = false → fld w 6 1 = s.rfld (.que n) 6 1 →
    fld w 26 15 = s.rfld (.que n) 26 15 →
    ∃ u, exec (.queDisable n w) s = .next u ∧ u.queEn n = false ∧ u.queues = s.queues ∧ u.vats = s.vats) ∧
  (∀ (s : State) (v : VatId) (st : StreamId) (x : Stream) (c : Completion), s.stream v st = some x →
    (s.qp x.queue).held = [(some (v, st), c)] →
    (s.cqBlocked x.queue = false → exec (.heldCompletionWrite v st) s =
      .next ((s.modQp x.queue (fun q => { q with held := [] })).writeCompletion x.queue (some (v, st)) c)) ∧
    (s.cqBlocked x.queue = true → exec (.heldCompletionWrite v st) s = .next s)) ∧
  (∀ (s : State) (n : QueueId) (t k : Nat), (s.qp n).window = some (t, k) →
    (windowOver t k s.now = true → (s.qp n).waiting = false →
      exec (.coalesceWindowEnd n) s = .next (s.modQp n (fun q => { q with window := none }))) ∧
    (windowOver t k s.now = true → (s.qp n).waiting = true → s.host.down (s.portOf n) = false →
      ∃ u, exec (.coalesceWindowEnd n) s = .next u ∧ u.out = s.out ++ [.msix (s.portOf n) (s.rfld (.queCq n 1) 26 16)] ∧
        (u.qp n).waiting = false ∧ (u.qp n).window = some (s.now, s.winTicks (1000 * s.rfld (.queCq n 1) 63 56))) ∧
    (windowOver t k s.now = false → exec (.coalesceWindowEnd n) s = .next s)) ∧
  (∀ (s : State) (p q : HostPort), p ≠ q →
    (s.host.down p = false → ∃ u, exec (.portDown p) s = .next u ∧ u.host.down p = true ∧ u.host.down q = s.host.down q ∧
      u.rfld .glbEventWr 39 8 = min (s.rfld .glbEventWr 39 8 + 1) (2 ^ 32 - 1)) ∧
    (s.host.down p = true → 2 ≤ s.modState → s.modState ≠ 7 → ∃ u, exec (.portUp p) s = .next u ∧ u.host.down p = false ∧
      u.host.down q = s.host.down q ∧ ∀ k, (p, k) ∈ s.host.msixPending → Out.msix p k ∈ u.out ∧ (p, k) ∉ u.host.msixPending))

/-- R267, R322 to R325, R402: an entry that arrives is kept with its tick, a request with the lowest free stream number of its vat, and HEAD moves on; a failed read moves HEAD and is answered; a request that
passes the checks becomes a stream with the fields of its entry, and one that fails is completed with the first failing check's status; a CANCEL
ends its target and is answered, with NOSTREAM where it has none and BADENTRY where its zero fields are not; a SKIM asks its target to be skimmed. -/
def Obligations.QueueEntries : Prop :=
  ∀ (s : State) (n : QueueId),
    let v := s.queVat n
    (∀ entry : List Byte, s.mayFetch n = true → entry.length = 64 → ∃ u, exec (.entryFetch n entry) s = .next u ∧
      (u.qp n).fetched = (s.qp n).fetched ++
        [{ bytes := entry, tick := s.now, num := (if leAt entry 0 1 = 2 ∨ leAt entry 0 1 = 3 then none else s.freeStreamId v) }] ∧
      u.rfld (.queSq n 1) 47 32 = (s.rfld (.queSq n 1) 47 32 + 1) % (s.rfld (.queSq n 1) 15 0 + 1) ∧ u.vats = s.vats ∧ u.out = s.out) ∧
    (s.mayFetch n = true → exec (.entryReadFailed n) s = .next ((s.advanceHead n).deliver n none 0 none
      { status := .address, control := true, vat := v, commitTick := s.now })) ∧
    (∀ entry : List Byte, s.mayFetch n = false → exec (.entryFetch n entry) s = .next s ∧ exec (.entryReadFailed n) s = .next s) ∧
    (∀ (e : Fetched) (es : List Fetched), (s.qp n).fetched = e :: es → s.ladleActs n = true →
      let op := leAt e.bytes 0 1
      let cmd := BitVec.ofNat 16 (leAt e.bytes 2 2)
      let answers (u : State) (st : Status) (x : BitVec 16) : State :=
        u.deliver n none 0 none { cmdId := cmd, status := st, control := true, vat := v, stream := x, commitTick := s.now }
      (∀ st, op = 1 → s.requestFault v n e.bytes = none → e.num.or ((s.takeFetched n).freeStreamId v) = some st →
        ∃ u x, exec (.request n) s = .next u ∧ (u.qp n).fetched = es ∧ u.stream v st = some x ∧ x.queue = n ∧ x.cmdId = cmd ∧
          x.promptLen = leAt e.bytes 16 4 ∧ x.maxNew = leAt e.bytes 20 4 ∧ x.topK = leAt e.bytes 28 2 ∧ x.invTemp.toNat = leAt e.bytes 32 4 ∧
          x.topP.toNat = leAt e.bytes 36 4 ∧ x.seed.toNat = leAt e.bytes 40 8 ∧ x.fetchTick = e.tick ∧ x.lc = 0 ∧ x.pages = [] ∧ u.cores = s.cores) ∧
      (∀ st, op = 1 → s.requestFault v n e.bytes = some st → exec (.request n) s = .next (((s.takeFetched n).refreshStreams v).deliver n none 0 none
        { cmdId := cmd, status := st, first := true, fin := true, vat := v, commitTick := s.now, fetchTick := e.tick })) ∧
      (op = 2 →
        (controlZero e.bytes = false → exec (.cancel n) s = .next (answers (s.takeFetched n) .badentry 0xFFFF)) ∧
        (controlZero e.bytes = true → s.streamByCmd v n (BitVec.ofNat 16 (leAt e.bytes 4 2)) = none →
          exec (.cancel n) s = .next (answers (s.takeFetched n) .nostream 0xFFFF)) ∧
        (∀ st x, controlZero e.bytes = true → s.streamByCmd v n (BitVec.ofNat 16 (leAt e.bytes 4 2)) = some (st, x) →
          exec (.cancel n) s = .next (answers ((s.takeFetched n).endStream v st .cancelled [] s.now) .ok (BitVec.ofNat 16 st.val)))) ∧
      (op = 3 →
        (controlZero e.bytes = true → s.streamByCmd v n (BitVec.ofNat 16 (leAt e.bytes 4 2)) = none →
          exec (.skim n) s = .next (answers (s.takeFetched n) .nostream 0xFFFF)) ∧
        (∀ st x, controlZero e.bytes = true → s.streamByCmd v n (BitVec.ofNat 16 (leAt e.bytes 4 2)) = some (st, x) → x.skimAsked = none →
          x.skimmed = false → exec (.skim n) s =
            .next (((s.takeFetched n).setStream v st { x with skimAsked := some (some cmd) }).trySkim v st)))) ∧
    (∀ bs : List Byte, leAt bs 0 1 = 1 → leAt bs 30 2 ≠ 0 → s.requestFault v n bs = some .badentry)

/-! ## Register writes (R6, R7, R31, R53, R117, R142, R161, R181, R200, R241, R256, R275, R316, R318, R357, R384, R400) -/

/-- R6, R7, R53, R316, R318, R319: the offsets of the register map name each register once; a write of a size or alignment that R316 does not allow, or at an
offset without a register, or while the block takes no writes, changes nothing; a plain write sets the RW bits and clears the W1C bits written 1; a write of a
staged field changes its shadow and no register. -/
def Obligations.RegisterMapAndWrites : Prop :=
  (∀ r : Reg, regAt (regOff r) = some r ∧ regOff r % 8 = 0) ∧
  (∀ (s : State) (off width : Nat) (x : Word64),
    ((width ≠ 32 ∧ width ≠ 64) ∨ (width = 64 ∧ off % 8 ≠ 0) ∨ (width = 32 ∧ off % 4 ≠ 0) ∨ regAt (off / 8 * 8) = none ∨ s.barUp = false) →
      exec (.registerWrite off width x) s = .next s) ∧
  (∀ (s : State) (x : Word64), s.barUp = true →
    (∃ u, exec (.registerWrite (regOff .glbIrq) 64 x) s = .next u ∧ u.rfld .glbIrq 12 0 = fld x 12 0 ∧
      u.rfld .glbIrq 16 16 = (if fld x 16 16 = 1 then 0 else s.rfld .glbIrq 16 16) ∧ (∀ r, r ≠ .glbIrq → u.getReg r = s.getReg r)) ∧
    (∃ u, exec (.registerWrite (regOff .glbIrq) 32 x) s = .next u ∧ u.rfld .glbIrq 12 0 = fld x 12 0) ∧
    (∃ u, exec (.registerWrite (regOff .tickPeriod) 64 x) s = .next u ∧ u.regs = s.regs ∧ fld (u.shadowOf .tickPeriod) 15 0 = fld x 15 0) ∧
    (∃ u, exec (.registerWrite (regOff .glbId) 64 x) s = .next u ∧ u = s))

/-- R117, R142, R161, R173, R181, R200, R241, R256, R275, R281, R357, R384, R400: each checked register takes a value that its rule allows, and a value or a
moment that the rule excludes leaves the register as it is and raises the flag that the rule names, if it names one. -/
def Obligations.CheckedRegisterWrites : Prop :=
  (∀ (s : State) (v : VatId) (x : Word64), s.hostReady = true →
    (s.issuesNothing v = true →
      (1 ≤ fld x 16 0 → fld x 16 0 ≤ 65536 → ∃ u, exec (.kvRegisterWrite v .kvLimit x) s = .next u ∧ u.vfld v .kvLimit 16 0 = fld x 16 0) ∧
      ((fld x 16 0 = 0 ∨ 65536 < fld x 16 0) → exec (.kvRegisterWrite v .kvLimit x) s = .next (s.putV v .kvConf 27 27 1)) ∧
      (∃ u, exec (.kvRegisterWrite v .kvListbase x) s = .next u ∧ u.vfld v .kvListbase 47 0 = fld x 47 0) ∧
      (∀ i,
        let w := s.vreg v (.ctr i 1)
        let m := (s.plainWrite (.vat v (.syncMap i)) x allLanes).syncMap v i
        ((∀ h q, m = some (h, q) → bitAt w 36 = false ∨ rectInHalf w (some h) = true) →
          ∃ u, exec (.counterRegisterWrite v (.syncMap i) x) s = .next u ∧ u.vfld v (.syncMap i) 15 0 = fld x 15 0) ∧
        ((∃ h q, m = some (h, q) ∧ bitAt w 36 = true ∧ rectInHalf w (some h) = false) →
          exec (.counterRegisterWrite v (.syncMap i) x) s = .next s)) ∧
      (∀ i,
        let j := s.sameEntry v i
        (fld x 49 34 ≠ 0 → ∃ u, exec (.counterRegisterWrite v (.ctr i 0) x) s = .next u ∧ u.vfld v (.ctr j 0) 31 0 = fld x 31 0 ∧
          u.vfld v (.ctr j 0) 49 34 = fld x 49 34) ∧
        (fld x 49 34 = 0 → exec (.counterRegisterWrite v (.ctr i 0) x) s = .next s) ∧
        (s.rectGood v j (s.merged (.vat v (.ctr j 1)) x allLanes) = true →
          ∃ u, exec (.counterRegisterWrite v (.ctr i 1) x) s = .next u ∧ u.vfld v (.ctr j 1) 36 0 = fld x 36 0) ∧
        (s.rectGood v j (s.merged (.vat v (.ctr j 1)) x allLanes) = false →
          exec (.counterRegisterWrite v (.ctr i 1) x) s = .next s))) ∧
    (s.issuesNothing v = false → exec (.kvRegisterWrite v .kvLimit x) s = .next (s.putV v .kvConf 27 27 1) ∧
      ∀ i w, exec (.counterRegisterWrite v (.syncMap i) x) s = .next s ∧ exec (.counterRegisterWrite v (.ctr i w) x) s = .next s) ∧
    ((fld x 13 0 ≠ 0 ∧ ∀ g, s.loadedIngot v = some g → fld x 13 0 ≤ g.maxGroup) →
      ∃ u, exec (.vatPrefillWrite v x) s = .next u ∧ u.vfld v .vatPrefill 18 0 = fld x 18 0) ∧
    ((fld x 13 0 = 0 ∨ ∃ g, s.loadedIngot v = some g ∧ g.maxGroup < fld x 13 0) →
      exec (.vatPrefillWrite v x) s = .next (s.putV v .vatPrefill 19 19 1)) ∧
    (∃ u, exec (.vatFaultClear v) s = .next u ∧ u.vreg v (.vatFault 0) = 0 ∧ u.vreg v (.vatFault 1) = 0 ∧ u.reports = s.reports)) ∧
  (∀ (s : State) (n : Fin 4096) (x : Word64), s.hostReady = true →
    (s.rfld (.ladleVariant n 1) 10 0 = 0 →
      bitAt x 0 = false ∨ (fld x 54 7 % 4096 = 0 ∧ fld x 54 7 < 1152000000000 ∧
        s.variantGood (s.merged (.ladleVariant n 0) x allLanes) = true) →
      ∃ u, exec (.ladleVariantWrite n 0 x) s = .next u ∧ u.rfld (.ladleVariant n 0) 54 0 = fld x 54 0) ∧
    (bitAt x 0 = true → fld x 54 0 ≠ s.rfld (.ladleVariant n 0) 54 0 →
      fld x 54 7 % 4096 ≠ 0 ∨ 1152000000000 ≤ fld x 54 7 ∨ s.variantGood (s.merged (.ladleVariant n 0) x allLanes) = false →
      exec (.ladleVariantWrite n 0 x) s = .next (s.putR (.ladleVariant n 0) 55 55 1)) ∧
    exec (.ladleVariantWrite n 1 x) s = .next s ∧
    (s.rfld (.ladleVariant n 1) 10 0 ≠ 0 →
      (s.rfld (.ladleVariant n 0) 0 0 = 1 ∧ bitAt x 0 = false) ∨ fld x 54 7 ≠ s.rfld (.ladleVariant n 0) 54 7 →
      exec (.ladleVariantWrite n 0 x) s = .next (s.putR (.ladleVariant n 0) 55 55 1))) ∧
  (∀ (s : State) (n : Fin 96) (x : Word64), s.barUp = true →
    (s.rfld (.glbPress n) 6 6 = 0 → (bitAt x 6 = true → ∀ v : VatId, v.val = fld x 5 0 → s.vfld v .vatPrefill 18 18 = 1 ∧ (s.vat v).pass = none) →
      ∃ u, exec (.glbPressWrite n x) s = .next u ∧ u.rfld (.glbPress n) 6 0 = fld x 6 0) ∧
    (∀ v : VatId, s.rfld (.glbPress n) 6 6 = 1 → v.val = s.rfld (.glbPress n) 5 0 → s.vfld v .vatPrefill 18 18 = 0 →
      fld x 6 0 ≠ s.rfld (.glbPress n) 6 0 → exec (.glbPressWrite n x) s = .next s)) ∧
  (∀ (s : State) (p : SharedPort) (w : Fin 8) (x : Word64), s.shareOpen p = true →
    (s.weightsWith p w x ≤ 16 → s.seamShareBad p w x allLanes = false → exec (.shareWeightWrite p w x) s = .next (s.setReg (shareReg p w) x)) ∧
    (16 < s.weightsWith p w x → exec (.shareWeightWrite p w x) s = .next s)) ∧
  (∀ (s : State) (x : Word64), s.barUp = true →
    (0xA0 ≤ fld x 7 0 → fld x 15 8 + 4 ≤ min (fld x 7 0) 0xBE → ∃ u, exec (.thermCtrlWrite x) s = .next u ∧
      u.rfld .thermCtrl 7 0 = min (fld x 7 0) 0xBE ∧ u.rfld .thermCtrl 15 8 = fld x 15 8) ∧
    (min (fld x 7 0) 0xBE < fld x 15 8 + 4 → exec (.thermCtrlWrite x) s = .next s) ∧
    (bitAt x 0 = true → ∃ u, exec (.assayPolicyWrite x) s = .next u ∧ u.rfld .assayPolicy 0 0 = 1) ∧
    (bitAt x 0 = false → exec (.assayPolicyWrite x) s = .next s))

/-! ## Twins (R300 to R306, R361, R362) -/

/-- R300 to R306, R314, R361: the standby keeps what MIRROR packets bring, applies a commit once its records are there and acknowledges it; an
acknowledgement frees the staging and writes the completion that waited; pairing, the end of synchronising, handover, takeover, FAIL and silence change
the pair's state and the owner of vats as R300 to R306 say; the vats of a FAIL, of a handover and of a TAKEOVER start here at the next tick. Which vats a
new pair's module owns, and that a vat taken over runs alone, are the model's reading (log entries 21, 22). -/
def Obligations.TwinPairActs : Prop :=
  (∀ (s : State) (v : VatId) (st : StreamId), s.standby v = true →
    (∀ m : MirrorStream, ∃ u y r, exec (.mirrorStream v m) s = .next u ∧ u.stream v m.stream = some y ∧ y.limit = m.limit ∧
      y.reserved = (m.limit + 63) / 64 ∧ y.cmdId = m.cmdId ∧ y.queue = m.queue ∧ u.mrec v m.stream = some r ∧ r.info = m ∧ r.kv = [] ∧
      r.waiting = []) ∧
    (∀ (r : MirrorRec) (stage pos head : Nat) (bytes : List Byte), s.mrec v st = some r → r.waiting = [] →
      exec (.mirrorKv v st stage pos head bytes) s = .next (s.setRec v st { r with kv := r.kv ++ [((stage, pos, head), bytes)] })) ∧
    (∀ (r : MirrorRec) (m : MirrorCommit), s.mrec v m.stream = some r → r.waiting = [] →
      (m.kvCount ≤ r.kv.length → ∃ (w : State) (q : MirrorRec), exec (.mirrorCommit v m) s = .next (w.sendRecord 6 v (.commitAck v m.stream m.lc)) ∧
        w.mrec v m.stream = some q ∧ q.lc = m.lc ∧ q.waiting = [] ∧ q.applied = r.applied ++ [m] ∧ q.kv = r.kv.drop m.kvCount ∧
        (∀ x, s.stream v m.stream = some x → ∃ y, w.stream v m.stream = some y ∧ y.lc = m.lc ∧
          y.newTokens = x.newTokens + m.tokens.length)) ∧
      (r.kv.length < m.kvCount → exec (.mirrorCommit v m) s = .next (s.setRec v m.stream { r with waiting := [m] }))) ∧
    (∀ (pail : Nat) (sts : List StreamId), ∃ u, exec (.mirrorFill v pail sts) s = .next u ∧ kfind u.twin.fills (v, pail) = some sts ∧
      kfind u.twin.lastFill v = some pail) ∧
    (∀ (cur : Nat) (cr : List (QueueId × Nat)) (ba : List (Fin 4096 × Word32)) (en : List (QueueId × List Byte × Nat)), ∃ u,
      exec (.mirrorLadle v cur cr ba en) s = .next u ∧
      kfind u.twin.ladles v = some { cursor := cur, credits := cr, balances := ba, entries := en }) ∧
    (∀ (status : Status) (x : Stream), s.stream v st = some x → ∃ u, exec (.mirrorEnd v st status) s = .next u ∧ u.stream v st = none ∧
      u.mrec v st = none ∧ ∀ r, s.mrec v st = some r → (v, r, status) ∈ u.twin.ends)) ∧
  (∀ (s : State) (v : VatId) (st : StreamId) (a : Unacked) (c : Completion), s.twin.unacked = [a] → a.acked = false →
    a.who = some (v, st) → a.comp = some c → (s.vat c.vat).handing = false → s.cqBlocked a.queue = false → (s.qp a.queue).held = [] →
    ∃ u, exec (.twinCommitAck v st a.lc) s = .next u ∧ u.twin.unacked = [] ∧ u.twin.staging = s.twin.staging - a.bytes ∧
      u.scheds = (s.writeCompletion a.queue a.who c).scheds ∧ u.vats = (s.writeCompletion a.queue a.who c).vats) ∧
  (∀ (s : State) (peer : List PeerVat) (chained : Bool), s.mayPair = true →
    (s.sameVats peer = true → chained = false → s.anyChained = false → ∃ u, exec (.pair peer chained) s = .next u ∧ u.twinState = 1 ∧
      (s.twinState = 0 → ∀ v, u.ownsVat v = decide (s.vstate v ∈ [2, 3, 4])) ∧ u.cores = s.cores) ∧
    (s.sameVats peer = false ∨ chained = true ∨ s.anyChained = true → exec (.pair peer chained) s = .next (s.putR .twinStatus 3 3 1))) ∧
  (∀ s : State, s.twinState = 1 →
    ((∀ a ∈ s.twin.unacked, a.comp = none → a.acked = true) → ∃ u, exec .mirrored s = .next u ∧ u.twinState = 2 ∧
      (∀ v, (u.vat v).alone = false ∧ (u.vat v).unsynced = false) ∧ u.cores = s.cores) ∧
    ((∃ a ∈ s.twin.unacked, a.comp = none ∧ a.acked = false) → exec .mirrored s = .next s)) ∧
  (∀ (s : State) (v : VatId), (s.vat v).handing = true → s.twin.cmdDue = false → s.twin.unacked = [] → s.ownsVat v = true →
    ∃ u, exec .handover s = .next u ∧ u.ownsVat v = false ∧ (u.vat v).handing = false ∧ (u.vat v).unsynced = true ∧
      (s.vstate v = 2 ∨ s.vstate v = 3 → u.vstate v = 4) ∧ u.cores = s.cores ∧
      ∀ l ∈ s.twinLinks, ∃ p m, Sent.packet p ∈ (u.link l).sent ∧ p.record = some (.handover m) ∧ bitAt m v = true) ∧
  (∀ (s : State) (v : VatId) (a : Unacked), s.twin.cmdDue = true → s.twin.cmd = 1 → bitAt (s.getReg .twinCmdMask) v = true →
    s.mirroring v = true → s.vstate v ≠ 5 → a ∈ s.twin.unacked → a.acked = false → a.vat = some v →
    ∃ u, exec .handover s = .next u ∧ (u.vat v).handing = true ∧ u.ownsVat v = true ∧ u.cores = s.cores) ∧
  (∀ (s : State) (v : VatId) (m : Word64), bitAt m v = true → s.ownsVat v = false → (s.vat v).unsynced = false → s.vstate v = 1 ∨ s.vstate v = 4 →
    (s.twinState = 1 ∨ s.twinState = 2 →
      (∃ u, exec (.failPacket m) s = .next u ∧ v ∈ u.twin.taking ∧ u.twin.failSeen = true ∧ u.vats = s.vats ∧ u.cores = s.cores) ∧
      (∃ u, exec (.handoverPacket m) s = .next u ∧ v ∈ u.twin.taking ∧ u.vats = s.vats ∧ u.cores = s.cores)) ∧
    (s.twinState = 3 ∨ s.twinState = 4 → s.twin.cmdDue = true → s.twin.cmd = 2 → s.getReg .twinCmdMask = m →
      ∃ u, exec .takeover s = .next u ∧ v ∈ u.twin.taking ∧ u.twinState = 3)) ∧
  (∀ (s : State) (h : Half) (v : VatId), s.runs h = true → s.rimHalf = h → s.staged = [] → s.meshStaged = [] → s.twin.taking = [v] →
    ∃ u, exec (.tick h) s = .next u ∧ u.twin.taking = [] ∧ u.vstate v = 2 ∧ u.ownsVat v = true ∧ (u.vat v).alone = true ∧
      ∀ c, s.vatOf c = some v → ((u.core c).thread 0).status = .ready) ∧
  (∀ s : State, s.twinState = 1 ∨ s.twinState = 2 → s.twin.failSeen = false →
    (s.getReg .twinOwner = 0 → ∃ u, exec .twinSilence s = .next u ∧ u.twinState = 4 ∧ u.cores = s.cores) ∧
    (s.getReg .twinOwner ≠ 0 → ∃ u, exec .twinSilence s = .next u ∧ u.twinState = 3 ∧ u.twin.unacked = [] ∧ u.twin.staging = 0))

/-! ## Management and power (R334 to R345, R353 to R355, R372, R379, R388 to R390, R395) -/

/-- R334, R335, R388, R389: the warden's SMBus commands answer with the register, log entry or readings asked for, a register it does not reach reads as
zeros, RESET and POWER_OFF act on 0xA5 alone, an image block that the assay unit refuses discards the image, the Alert Response releases SMB_ALERT_N,
and the test header's instructions act in OFF, CHECK and HALTED alone. -/
def Obligations.ManagementCommands : Prop :=
  (∀ s : State, s.wardenAnswers = true →
    exec .ident s = .next { s with smbus := leBytes 8 (s.getReg .glbId).toNat } ∧
    (∃ w : Region, (∀ r, s.tempOf r ≤ s.tempOf w) ∧
      exec .smState s = .next { s with smbus := leBytes 1 s.modState ++ leBytes 1 (s.tempOf w) ++ leBytes 1 w }) ∧
    (∀ (off : Nat) (r : Reg), regAt off = some r →
      exec (.readReg off) s = .next { s with smbus := if wardenReads r then leBytes 8 (s.getReg r).toNat else List.replicate 8 0 }) ∧
    (∀ i, exec (.events i) s =
      .next { s with smbus := leBytes 8 (s.getReg (.glbEvent i 0)).toNat ++ leBytes 8 (s.getReg (.glbEvent i 1)).toNat }) ∧
    (s.resetFree = true → ∃ u, exec (.smbusReset 0xA5) s = .next u ∧ u.pow.resetAsked = true ∧ u.regs = s.regs) ∧
    (∀ b, b ≠ 0xA5 → exec (.smbusReset b) s = .next s ∧ exec (.powerOff b) s = .next s) ∧
    (s.inService = true → ∃ u, exec (.powerOff 0xA5) s = .next u ∧ u.modState = 6 ∧ (∀ h, u.wakes h = []) ∧ u.cores = s.cores) ∧
    (∀ bs, bs.length ≤ 255 →
      (∃ u, exec (.fwImage bs true) s = .next u ∧ u.pow.fwBuf = s.pow.fwBuf ++ bs ∧ u.regs = s.regs) ∧
      (∃ u, exec (.fwImage bs false) s = .next u ∧ u.pow.fwBuf = [] ∧ u.rfld .assayStatus 1 0 = 3 ∧ u.rfld .assayStatus 3 3 = 1)) ∧
    (∃ u, exec .smbusAlertResponse s = .next u ∧ u.smbAlertN = true ∧ u.regs = s.regs)) ∧
  (∀ s : State, s.wardenAnswers = false → exec .ident s = .next s ∧ exec .smState s = .next s ∧ (∀ i, exec (.events i) s = .next s) ∧
    (∀ b, exec (.smbusReset b) s = .next s)) ∧
  (∀ (s : State) (op : TapOp) (cells : Word64),
    (s.modState = 0 ∨ s.modState = 1 ∨ s.modState = 7 → ∃ u, exec (.tapInstruction op cells) s = .next u ∧ u.pow.tapOp = op ∧
      (op ≠ .bypass → u.pow.tapCells = cells) ∧ u.regs = s.regs) ∧
    (s.modState ≠ 0 → s.modState ≠ 1 → s.modState ≠ 7 → ∃ u, exec (.tapInstruction op cells) s = .next u ∧ u.pow.tapOp = .bypass ∧
      u.pow.tapCells = s.pow.tapCells ∧ u.regs = s.regs))

/-- R32, R34, R336 to R343, R345: a start goes from OFF over CHECK, RIM, WAKE and TEST to READY, one state at a time, each phase leaving what its
rule says; a phase that fails ends in HALTED with its phase noted; power-good of a quenched module starts nothing. -/
def Obligations.StartSequence : Prop :=
  (∀ s : State, s.modState = 0 →
    (s.rfld .thermStatus 24 24 = 0 → ∃ u, exec .powerGood s = .next u ∧ u.modState = 1 ∧ u.rfld .pwrState 5 5 = 1 ∧ u.rfld .pwrState 6 6 = 0 ∧
      u.rfld .pwrState 31 16 = min (s.rfld .pwrState 31 16 + 1) 65535 ∧
      (u.rfld .pwrState 3 3 = 1 ↔ s.pow.mapStored = false ∨ s.rfld .pwrState 4 4 = 1 ∨ s.pow.prevFail = true)) ∧
    (s.rfld .thermStatus 24 24 = 1 → ∃ u, exec .powerGood s = .next u ∧ u.modState = 0 ∧ u.rfld .pwrState 31 16 = s.rfld .pwrState 31 16)) ∧
  (∀ s : State, s.modState ≠ 0 → exec .powerGood s = .next s) ∧
  (∀ (s : State) (a b c : Bool), s.modState = 1 →
    ((a && b && c) = true → ∃ u, exec (.check a b c) s = .next u ∧ u.modState = 2 ∧ u.rfld .assayStatus 2 2 = 1) ∧
    ((a && b && c) = false → ∃ u, exec (.check a b c) s = .next u ∧ u.modState = 7 ∧ u.rfld .pwrState 10 8 = 2 ∧ u.rfld .assayStatus 1 0 = 3)) ∧
  (∀ (s : State) (failed : List RimPart), s.modState = 2 →
    (∃ u, exec (.rim true failed) s = .next u ∧ u.modState = 3 ∧
      (∀ k : Fin 24, .stack k ∈ failed → u.rfld (.glbStack k) 31 0 = 2 ^ 32 - 1) ∧
      ∀ n : Fin 96, .press n ∈ failed → u.rfld (.glbPress n) 7 7 = 1) ∧
    (∃ u, exec (.rim false failed) s = .next u ∧ u.modState = 7 ∧ u.rfld .pwrState 10 8 = 3)) ∧
  (∀ s : State, s.modState = 3 →
    (∃ u, exec (.wake true) s = .next u ∧ u.modState = 4 ∧ u.tickNorth = 0 ∧ u.tickSouth = 0 ∧ u.runNorth = true ∧ u.runSouth = true ∧
      ∀ r, s.regionRetired r = false → u.regionOn r = true ∧ u.stepOf r = 10) ∧
    (∃ u, exec (.wake false) s = .next u ∧ u.modState = 7 ∧ u.rfld .pwrState 10 8 = 4)) ∧
  (∀ (s : State) (xs : List CoreReport), s.modState = 4 → s.pow.tested = false →
    (∃ u, exec (.test true xs) s = .next u ∧ u.modState = 4 ∧ u.pow.tested = true ∧ u.pow.mapStored = true ∧ u.rfld .pwrMap 0 0 = 1 ∧
      u.cores = [] ∧ (s.rfld .pwrState 3 3 = 1 → u.rfld .pwrState 4 4 = 0)) ∧
    (∃ u, exec (.test false xs) s = .next u ∧ u.modState = 7 ∧ u.rfld .pwrState 10 8 = 5)) ∧
  (∀ s : State, s.modState = 4 → s.pow.tested = true →
    (∃ u, exec (.ready true) s = .next u ∧ u.modState = 5 ∧ u.pow.resetActive = false ∧ ∀ r, s.ownerOf r = none → u.regionOn r = false) ∧
    (∃ u, exec (.ready false) s = .next u ∧ u.modState = 7 ∧ u.rfld .pwrState 10 8 = 6))

/-- R335, R337, R338, R353 to R355, R379, R380, R390, R395: a switch-off, a power-fail warning, a hot coolant and a quench end in OFF, the first three through
the shutdown sequence, with the wafer's memory gone; the loss of input makes the next start cold; a module reset in service restarts from WAKE with the stacks
as they were; beyond the ratings of R390 the module stops, the spec giving no behaviour there. -/
def Obligations.PowerLossAndReset : Prop :=
  (∀ (s : State) (x : Word64),
    (s.inService = true → fld x 7 0 = 0xA5 → ∃ u, exec (.pwrCtrlOff x) s = .next u ∧ u.modState = 6 ∧ u.cores = s.cores) ∧
    (s.inService = false ∨ fld x 7 0 ≠ 0xA5 → exec (.pwrCtrlOff x) s = .next s)) ∧
  (∀ s : State, s.modState = 6 →
    (∃ u, exec .shutdown s = .next u ∧ u.modState = 0 ∧ u.cores = [] ∧ u.stackMem = [] ∧ u.runNorth = false ∧ u.runSouth = false ∧ u.vats = []) ∧
    (s.rfld .pwrState 7 7 = 0 → ∃ u, exec .inputReturned s = .next u ∧ u.rfld .pwrState 7 7 = 1 ∧ u.modState = 6) ∧
    exec .moduleReset s = .next s ∧ exec .resetNFalling s = .next s) ∧
  (∀ (s : State) (c : FailCause), s.rfld .pwrState 6 6 = 0 → causeRated c = true →
    ∃ u, exec (.powerFailWarn c) s = .next u ∧ u.rfld .pwrState 6 6 = 1 ∧ (s.inService = true → u.modState = 6 ∧ u.pow.prevFail = true) ∧
      (s.modState = 1 ∨ s.modState = 7 → u.modState = 0) ∧ (c = .undervoltage → u.rfld .pwrState 5 5 = 0)) ∧
  (∀ s : State, s.modState ≠ 0 → ∃ u, exec .inputLoss s = .next u ∧ u.modState = 0 ∧ u.pow.prevFail = true ∧ u.cores = [] ∧ u.stackMem = [] ∧
    u.rfld .pwrState 5 5 = 0) ∧
  (∀ s : State, s.resetFree = true →
    (∃ u, exec .resetNFalling s = .next u ∧ u.pow.resetAsked = true ∧ u.regs = s.regs) ∧
    (s.inService = true → ∃ u, exec .moduleReset s = .next u ∧ u.modState = 3 ∧ u.pow.resetActive = true ∧ u.stackMem = s.stackMem ∧ u.cores = [] ∧
      u.rfld .assayStatus 2 2 = s.rfld .assayStatus 2 2) ∧
    (s.modState = 0 ∨ s.modState = 1 ∨ s.modState = 7 → ∃ u, exec .moduleReset s = .next u ∧ u.modState = 0 ∧ u.rfld .thermStatus 24 24 = 0)) ∧
  (∀ (s : State) (r : Region) (temp inlet : Nat),
    (220 ≤ temp → temp ≤ 250 → 2 ≤ s.modState → s.modState ≠ 7 → ∃ u, exec (.quench r temp) s = .next u ∧ u.modState = 0 ∧
      u.rfld .thermStatus 24 24 = 1 ∧ u.rfld .pwrState 4 4 = 1 ∧ u.cores = []) ∧
    (80 < inlet → inlet ≤ 100 → ∃ u, exec (.coolantHigh inlet) s = .next u ∧ u.rfld .thermStatus 15 8 = inlet ∧
      u.rfld .thermStatus 25 25 = 1 ∧ u.cores = s.cores) ∧
    (90 < inlet → inlet ≤ 100 → s.inService = true → ∃ u, exec (.coolantShutdown inlet) s = .next u ∧ u.modState = 6) ∧
    (inlet ≤ 90 → exec (.coolantShutdown inlet) s = .next s) ∧
    (250 < temp → exec (.quench r temp) s = .fault .beyondRatings) ∧
    (100 < inlet → exec (.coolantHigh inlet) s = .fault .beyondRatings ∧ exec (.coolantShutdown inlet) s = .fault .beyondRatings) ∧
    (∀ mv, 65000 < mv → exec (.powerFailWarn (.overvoltage mv)) s = .fault .beyondRatings))

/-! ## Thermal control and faults of regions, groups, halves and channels (R21, R33, R255, R303, R364, R369 to R376) -/

/-- R52, R374 to R376: a thermal window, once the last one's 1 ms is over, reports the coolant; with a region at THROTTLE_AT the hottest one has its limit put one below its step; a vat whose
region has been throttled for 100 windows in a row is stretched by one, and after 1,000 windows without throttling it is released by one. -/
def Obligations.ThermalControl : Prop :=
  (∀ (s : State) (inlet outlet : Nat) (xs : List ThermReading), s.inWindow = true → exec (.thermalWindow inlet outlet xs) s = .next s) ∧
  (∀ (s : State) (inlet outlet : Nat) (xs : List ThermReading), 2 ≤ s.modState → s.modState ≠ 7 → s.inWindow = false →
    ∃ u, exec (.thermalWindow inlet outlet xs) s = .next u ∧ u.rfld .thermStatus 15 8 = min 255 inlet ∧
      u.rfld .thermStatus 23 16 = min 255 outlet ∧ (u.rfld .thermStatus 25 25 = 1 ↔ 80 < inlet) ∧ u.cores = s.cores) ∧
  (∀ (s : State) (inlet outlet : Nat) (h : Region), 2 ≤ s.modState → s.modState ≠ 7 → s.inWindow = false → s.hottest = some h →
    s.rfld .thermCtrl 7 0 ≤ s.predictOf h →
    ∃ u, exec (.thermalWindow inlet outlet []) s = .next u ∧ u.thermLimit h = min (s.stepOf h) (s.stepTarget h) - 1 ∧
      u.rfld .thermStatus 7 0 = h.val ∧ u.rfld .thermStatus 47 32 = min (s.rfld .thermStatus 47 32 + 1) 65535) ∧
  (∀ (s : State) (v : VatId) (r : Region), s.holds v r = true → 100 ≤ kget 0 s.therm.hotWindows r → s.rfld (.thermVat v) 0 0 = 1 →
    s.rfld (.thermVat v) 4 1 < 15 → ∃ u, exec (.stretch v) s = .next u ∧ u.rfld (.thermVat v) 4 1 = s.rfld (.thermVat v) 4 1 + 1 ∧
      u.cores = s.cores) ∧
  (∀ (s : State) (v : VatId), s.rfld (.thermVat v) 4 1 ≠ 0 → 1000 ≤ kget 0 s.therm.calmWindows v →
    ∃ u, exec (.stretchRelease v) s = .next u ∧ u.rfld (.thermVat v) 4 1 = s.rfld (.thermVat v) 4 1 - 1 ∧ u.cores = s.cores) ∧
  (∀ (s : State) (v : VatId), s.rfld (.thermVat v) 0 0 = 0 → exec (.stretch v) s = .next s)

/-- R21, R33, R241, R255, R303, R364, R367, R369 to R373: a half that fails is stopped with its vats, its regions off and the seam closed, and a restart takes the
other half's tick and zeroes its memory; a broken sense pair is flagged and stops no vat; a supply fault fences its group's regions and stops their vats, and
the converter's restart brings them back zeroed; a suspect bump is capped and awaits retirement; a tripped fuse retires its region; a fenced channel
of a stack stops no vat, and the last one retires the stack's presses. -/
def Obligations.HardwareFaults : Prop :=
  (∀ (s : State) (h : Half), s.runs h = true → ∃ u, exec (.halfFault h) s = .next u ∧ u.runs h = false ∧ h ∈ u.pow.halvesDown ∧
    (∀ r, halfOf r = h → u.regionOn r = false) ∧ (∀ r, halfOf r ≠ h → u.regionOn r = s.regionOn r) ∧
    (∀ n, (kget {} u.seams n).closed = true) ∧
    (∀ v, s.inHalf v h = true → ∃ x ∈ u.reports, x.vat = v ∧ x.status = .vatfault)) ∧
  (∀ (s : State) (h : Half), h ∈ s.pow.halvesDown → h ∉ s.pow.halvesLeftOff → s.barUp = true → ∃ u, exec (.halfRestartDone h) s = .next u ∧
    u.runs h = true ∧ u.tickOf h = s.tickOf (otherHalf h) ∧ h ∉ u.pow.halvesDown ∧ (∀ c, halfOf (regionOf c) = h → (u.core c).mem = []) ∧
    (∀ r v, halfOf r = h → s.regionRetired r = false → s.ownerOf r = some v → u.regionOn r = true ∧ u.stepOf r = 10)) ∧
  (∀ (s : State) (g : Group) (b : Bool), s.barUp = true → s.rfld (.pwrGroup g) b.toNat b.toNat = 0 → ∃ u, exec (.senseBroken g b) s = .next u ∧
    u.rfld (.pwrGroup g) b.toNat b.toNat = 1 ∧ (s.rfld (.pwrGroup g) (1 - b.toNat) (1 - b.toNat) = 1 → u.rfld (.pwrGroup g) 2 2 = 1) ∧
    u.reports = s.reports) ∧
  (∀ (s : State) (g : Group), s.barUp = true → g ∉ s.pow.restarting → s.pow.supplyTicks = [] → ∃ u, exec (.supplyFault g) s = .next u ∧
    g ∈ u.pow.restarting ∧ u.rfld (.pwrGroup g) 15 12 = min (s.rfld (.pwrGroup g) 15 12 + 1) 15 ∧
    (∀ r, groupOf r = g → r ∈ u.pow.fenced ∧ u.regionOn r = false ∧
      ∀ v, s.ownerOf r = some v → ∃ x ∈ u.reports, x.vat = v ∧ x.status = .vatfault ∧ x.hardware = true)) ∧
  (∀ (s : State) (g : Group), g ∈ s.pow.restarting →
    (∃ u, exec (.converterRestart g true) s = .next u ∧ g ∉ u.pow.restarting ∧
      (∀ r, groupOf r = g → s.regionRetired r = false → r ∉ u.pow.fenced ∧ r ∈ u.pow.needRelock ∧
        ∀ c, regionOf c = r → ∀ x, x < 0x300000 → memGet (u.core c).mem x = 0)) ∧
    (∃ u, exec (.converterRestart g false) s = .next u ∧ g ∉ u.pow.restarting ∧ u.pow.fenced = s.pow.fenced ∧ u.regs = s.regs)) ∧
  (∀ (s : State) (r : Region) (drop : Nat), s.regionOn r = true → s.regionRetired r = false →
    let g := groupOf r
    let i := r.val % 2
    (25 < drop → s.rfld (.pwrGroup g) (3 + i) (3 + i) = 0 → (∀ v, s.ownerOf r = some v → s.mirroring v = false) →
      ∃ u, exec (.bumpSuspect r drop) s = .next u ∧ u.rfld (.pwrGroup g) (3 + i) (3 + i) = 1 ∧ u.rfld (.pwrGroup g) (7 + i) (7 + i) = 1 ∧
        u.rfld (.pwrGroup g) (23 + 8 * i) (16 + 8 * i) = min 255 drop ∧ r ∈ u.therm.capped ∧ u.reports = s.reports) ∧
    (drop ≤ 25 → exec (.bumpSuspect r drop) s = .next (s.putR (.pwrGroup g) (23 + 8 * i) (16 + 8 * i) drop))) ∧
  (∀ (s : State) (r : Region), s.barUp = true → s.rfld (.pwrGroup (groupOf r)) (5 + r.val % 2) (5 + r.val % 2) = 0 →
    ∃ u, exec (.fuseTrip r) s = .next u ∧ u.rfld (.pwrGroup (groupOf r)) (5 + r.val % 2) (5 + r.val % 2) = 1 ∧ u.regionRetired r = true) ∧
  (∀ (s : State) (k : Fin 24) (ch : Fin 32), s.threeErrors k ch = false → exec (.channelRetired k (.threeErrors ch)) s = .next s) ∧
  (∀ (s : State) (k : Fin 24) (ch : Fin 32) (why : ChannelCause), s.barUp = true → s.rfld (.glbStack k) ch ch = 0 →
    why = .retraining ch ∨ (why = .threeErrors ch ∧ s.threeErrors k ch = true) → ∃ u, exec (.channelRetired k why) s = .next u ∧
    u.rfld (.glbStack k) ch ch = 1 ∧ u.reports = s.reports ∧
    ((∀ i : Fin 32, i ≠ ch → s.rfld (.glbStack k) i i = 1) → ∀ n : Fin 96, n.val / 4 = k.val → u.rfld (.glbPress n) 7 7 = 1))

/-! ## Device links (R285 to R299, R308, R311, R314, R386) -/

/-- R285 to R288, R290 to R293, R386: a link whose ends are valid and of pairing roles comes up with its peer noted, and else shows MISMATCH; a good head
cell opens its packet and a good last cell delivers it once, in sequence; a cell whose CRC fails, or a packet that is not the one expected, asks for a
replay; a framing error is counted; cells and headers read back what was laid into them; an acknowledgement frees the replay buffer; a replay sends it
again; lanes retire and spares join; a failed link is retired and leaves every route. -/
def Obligations.LinkCellsAndLanes : Prop :=
  (∀ (s : State) (l : LinkId) (dev : BitVec 16) (far : BitVec 6) (role : BitVec 2), s.barUp = true → s.linkEn l = true → s.linkRetiredBit l = false →
    (s.linkUp l = false → s.rfld .linkId 16 16 = 1 → rolesPair (s.role l) role.toNat = true →
      ∃ u, exec (.linkTraining l true true dev far role) s = .next u ∧ u.linkUp l = true ∧ u.peerDev l = dev ∧
        u.rfld (.linkStatus l) 26 21 = far.toNat ∧ u.rfld (.linkStatus l) 4 4 = 0) ∧
    (s.linkUp l = false → rolesPair (s.role l) role.toNat = false →
      exec (.linkTraining l true true dev far role) s = .next (s.putR (.linkStatus l) 4 4 1)) ∧
    (s.linkUp l = true → ∃ u, exec (.linkTraining l false true dev far role) s = .next u ∧ u.linkUp l = false)) ∧
  (∀ (kind : Nat) (fin : Bool) (frame : List Byte), kind < 4 → frame.length = 32 → (cellBytes kind fin frame).length = 36 ∧
    cellOf (cellBytes kind fin frame) = (match kind with
      | 0 => .idle
      | 1 => .head fin (packetOf frame)
      | 2 => .payload fin frame
      | _ => .control)) ∧
  (∀ p : Packet, (headerBytes p).length = 32 ∧ packetOf (headerBytes p) = { p with data := [], record := none }) ∧
  (∀ (s : State) (l : LinkId), s.linkUp l = true → s.linkRetiredBit l = false →
    (∀ cell, cellOf cell = .idle ∨ cellOf cell = .control → exec (.cellReceive l cell) s = .next s) ∧
    (∀ (p : Packet) (cell : List Byte), cellOf cell = .head false p → (s.link l).askReplay = false → (s.link l).opened = none →
      (1 ≤ p.length.toNat → p.length.toNat ≤ 4096 →
        ∃ u, exec (.cellReceive l cell) s = .next u ∧ (u.link l).opened = some { p with data := [] } ∧ (u.link l).body = [] ∧
          (u.link l).rx = (s.link l).rx) ∧
      (p.length.toNat = 0 ∨ 4096 < p.length.toNat → ∃ u, exec (.cellReceive l cell) s = .next u ∧ (u.link l).askReplay = true ∧
        u.rfld (.linkStat l) 31 16 = min (s.rfld (.linkStat l) 31 16 + 1) 65535 ∧ (u.link l).rx = (s.link l).rx)) ∧
    (∀ (p : Packet) (bs cell : List Byte), cellOf cell = .payload true bs → (s.link l).opened = some p → (s.link l).body = [] →
      1 ≤ p.length.toNat → p.length.toNat ≤ 32 → bs.length = 32 → p.reroute = false → p.ty = 1 → (s.link l).askReplay = false →
      (s.link l).rxFrames + 2 ≤ 2048 →
      (p.lseq = (s.link l).lseqIn → ∃ u, exec (.cellReceive l cell) s = .next u ∧
        (p.dstDev ≠ s.deviceId → (u.link l).rx = (s.link l).rx ++ [{ p with data := bs.take p.length.toNat }]) ∧
        (u.link l).lseqIn = (s.link l).lseqIn + 1 ∧ (u.link l).rxFrames = (s.link l).rxFrames + 2 ∧ (u.link l).opened = none) ∧
      (2 ^ 15 ≤ (p.lseq - (s.link l).lseqIn).toNat → ∃ u, exec (.cellReceive l cell) s = .next u ∧ (u.link l).rx = (s.link l).rx ∧
        (u.link l).lseqIn = (s.link l).lseqIn ∧ (u.link l).askReplay = false) ∧
      (p.lseq ≠ (s.link l).lseqIn → (p.lseq - (s.link l).lseqIn).toNat < 2 ^ 15 → ∃ u, exec (.cellReceive l cell) s = .next u ∧
        (u.link l).rx = (s.link l).rx ∧ (u.link l).lseqIn = (s.link l).lseqIn ∧ (u.link l).askReplay = true)) ∧
    (∀ cell, cellOf cell = .damaged → ∃ u, exec (.cellReceive l cell) s = .next u ∧ (u.link l).askReplay = true ∧
      (u.link l).rx = (s.link l).rx ∧ (u.link l).opened = none ∧
      ((s.link l).askReplay = false → ∃ i, (u.link l).sent = (s.link l).sent ++ [.control i] ∧ i.replay = some (s.link l).lseqIn)) ∧
    (∀ (p : Packet) (ps : List Packet) (n : Nat) (per : BitVec 16), (s.link l).replay = p :: ps → p.reroute = false →
      (s.link l).replayReq = none →
      ∃ u, exec (.controlCell l { ack := some p.lseq, credits := n, peerPeriod := per }) s = .next u ∧ (u.link l).replay = ps ∧
        (u.link l).fails = 0 ∧ (u.link l).framesUsed = (s.link l).framesUsed - n) ∧
    (∀ (n : BitVec 16) (per : BitVec 16), ∃ u, exec (.controlCell l { replay := some n, peerPeriod := per }) s = .next u ∧
      (u.link l).replayReq = some n ∧ (u.link l).sent = (s.link l).sent) ∧
    (∀ n, (s.link l).replayReq = some n → (s.link l).fails < 4 → ∃ u, exec (.linkReplay l) s = .next u ∧
      (s.link l).sent ++ (s.link l).replay.map Sent.packet <+: (u.link l).sent ∧ (u.link l).replayReq = none ∧
      u.rfld (.linkStat l) 15 0 = min (s.rfld (.linkStat l) 15 0 + 1) 65535) ∧
    (∀ (lane : Fin 18) (why : LaneCause), laneOf why = lane → lane.val < 16 → lane ∉ (s.link l).lanesDead →
      (laneRetires why = true → ∃ u, exec (.laneRetired l why) s = .next u ∧
        (u.link l).lanesDead = (s.link l).lanesDead ++ [lane] ∧ (u.link l).lanesShort = (s.link l).lanesShort + 1 ∧
        (u.link l).replay = (s.link l).replay) ∧
      (laneRetires why = false → exec (.laneRetired l why) s = .next s)) ∧
    (∀ (x : Fin 18) (xs : List (Fin 18)), (s.link l).idleSpares = x :: xs → (s.link l).lanesShort ≠ 0 →
      ∃ u, exec (.spareLaneIn l) s = .next u ∧ (u.link l).sparesIn = (s.link l).sparesIn ++ [x] ∧
        (u.link l).lanesShort = (s.link l).lanesShort - 1) ∧
    ((s.link l).failed = true → ∃ u, exec (.linkRetired l) s = .next u ∧ u.linkRetiredBit l = true ∧ u.linkUp l = false ∧
      (u.link l).replay = [] ∧ (∀ i, u.rfld (.linkRoute i 1) l l = 0) ∧
      ∀ x, s.detour l = some x → (u.link x).ahead.map Packet.data = (s.link x).ahead.map Packet.data ++
        ((s.link l).replay ++ (s.link l).ahead ++ s.queuedPackets l).map Packet.data) ∧
    ((s.link l).failed = false → exec (.linkRetired l) s = .next s)) ∧
  ∀ lane n, laneRetires (.lockLost lane) = true ∧ laneRetires (.codewords lane n) = decide (16 < n)

/-- R25, R289, R294, R297 to R299, R311: a packet for another device goes on by its route; a WRITE that passes its checks is written at its target and,
the last of its access, acknowledged; it waits while the target's region is off, and one that fails is refused and answered; a READ is answered with data; DATA and ACK complete the descriptor they answer, and a late one is
counted; a LOAD packet's bytes are kept; a remote descriptor out of time completes with TIMEOUT and its tag waits its quarantine. -/
def Obligations.LinkPackets : Prop :=
  (∀ (s : State) (l : LinkId) (p : Packet) (ps : List Packet), (s.link l).rx = p :: ps →
    let s1 := s.dropRx l p
    (s1.link l).rx = ps ∧
    (∀ x, p.dstDev ≠ s.deviceId → p.ty ≠ 7 → s.routeOf p = some x →
      exec (.packetForward l) s = .next (s1.offer (.link x) true 64 (.packet { p with reroute := false, origLink := 0 }))) ∧
    (p.dstDev = s.deviceId → p.ty = 1 →
      (∀ c, s.memOk = true → s.remoteFault p true p.data.length = none → bitAt p.addr 20 = false → core3 p.addr = some c →
        s.regionOn (regionOf c) = true → (s.core c).inSpm (addr3 p.addr) p.data.length = true → p.signal = false →
        ∃ u, exec (.linkWrite l) s = .next u ∧ (u.link l).rx = ps ∧
          (∀ j, j < p.data.length → memGet (u.core c).mem (addr3 p.addr + j) = p.data.getD j 0) ∧
          (∀ x, (x < addr3 p.addr ∨ addr3 p.addr + p.data.length ≤ x) → memGet (u.core c).mem x = memGet (s.core c).mem x) ∧
          u.stackMem = s.stackMem ∧ (p.last = true → ∃ w : State, u = w.postRouted (answer p 4 .ok ackBytes))) ∧
      (s.remoteFault p true p.data.length = none → s.targetOff p.addr = true → exec (.linkWrite l) s = .next s) ∧
      (∀ st, s.remoteFault p true p.data.length = some st →
        exec (.linkWrite l) s = .next ((s1.countRefused l).postRouted (answer p 4 st ackBytes)))) ∧
    (∀ bs, p.dstDev = s.deviceId → p.ty = 2 → leAt p.data 0 4 ≠ 0 → s.remoteFault p false (leAt p.data 0 4) = none →
      s.targetOff p.addr = false → s.remoteSource p.addr (leAt p.data 0 4) = (bs, true) →
      exec (.linkRead l) s = .next ((s1.sourceMet p.addr (leAt p.data 0 4) bs.length).postData p bs .ok)) ∧
    (∀ (c : CoreId) (i : Nat) (d : Desc), p.dstDev = s.deviceId → s.asker p = some (c, i, d) → p.status = 0 →
      (p.ty = 3 → kindOf d.src = 3 → kindOf d.dst = 0 → s.answerHeld c d p.data.length = false →
        (p.last = true → exec (.linkData l) s = .next ((s1.putAnswer c d p.data).finishDesc c i d .ok)) ∧
        (p.last = false → exec (.linkData l) s = .next ((s1.putAnswer c d p.data).modCore c (fun k =>
          { k with dmaActive := k.dmaActive.set i { d with moved := d.moved + p.data.length } })))) ∧
      (p.ty = 4 → kindOf d.dst = 3 → exec (.linkAck l) s = .next (s1.finishDesc c i d .ok))) ∧
    (p.dstDev = s.deviceId → s.asker p = none → (p.ty = 4 → exec (.linkAck l) s = .next (s1.countLate p.dstVat)) ∧
      (p.ty = 3 → exec (.linkData l) s = .next (s1.countLate p.dstVat))) ∧
    (p.ty = 7 → s.memOk = true → ∃ u, exec (.load l) s = .next u ∧ (u.link l).rx = ps ∧
      (∀ j, j < p.data.length → memGet u.tree (p.addr.toNat + j) = p.data.getD j 0) ∧
      (∀ x, (x < p.addr.toNat ∨ p.addr.toNat + p.data.length ≤ x) → memGet u.tree x = memGet s.tree x))) ∧
  (∀ (s : State) (c : CoreId) (i : Fin 8) (d : Desc), (s.core c).dmaActive[i.val]? = some d → d.result = none →
    canTimeOut d = true → d.signal = false → d.statusAddr ≠ 0 →
    (s.timedOut c d = true → ∃ u, exec (.remoteTimeout c i) s = .next u ∧ (u.core c).dmaActive = (s.core c).dmaActive.eraseIdx i ∧
      (u.core c).mem = memPut (s.core c).mem d.statusAddr (leBytes 4 0x113) ∧
      (∀ x, d.tag = some x → (u.core c).quarantine =
        (s.core c).quarantine ++ [(x, d.ptag, s.tickOf (halfOf (regionOf c)), s.winTicks 4000000)])) ∧
    (s.timedOut c d = false → exec (.remoteTimeout c i) s = .next s)) ∧
  (∀ (s : State) (c : CoreId) (x : Fin 64), ∃ u, exec (.tagQuarantineEnd c x) s = .next u ∧ ∀ q, q ∈ (u.core c).quarantine ↔
    q ∈ (s.core c).quarantine ∧ ¬ (q.1 = x ∧ windowOver q.2.2.1 q.2.2.2 (s.tickOf (halfOf (regionOf c))) = true))

/-! ## Loading (R183, R188, R264, R312, R356 to R359) -/

/-- R67, R117, R183, R188, R258, R312, R356 to R359: a table whose checks pass is taken, moved as it says; one that fails a check is refused, and the report
names what offends first; so is one without a hallmark where one is required, or whose signature is false; a segment writes what it holds where the vat's
placement reaches, an item elsewhere ends the load and is named, and a segment of a hallmarked ingot whose digest is false ends the load with SEGMENT naming
it; with every segment in and the last checks passed the vat is LOADED, or, if it was QUIESCED, stays so. -/
def Obligations.LoadingAnIngot : Prop :=
  (∀ (s : State) (v : VatId) (t : IngotTable) (sig : Bool), s.modState = 5 → s.vstate v = 0 ∨ s.vstate v = 1 →
    let m := movedTable t
    (t.hallmarked = true ∨ s.rfld .assayPolicy 0 0 = 0 → versionGood t = true → s.placementGood v m = true → layoutGood m = true →
      (t.hallmarked = true → sig = true) →
      ∃ u, exec (.segmentTable v t sig) s = .next u ∧ (u.vat v).ingot = some m ∧ (u.vat v).landed = [] ∧ u.vstate v = 0 ∧
        (u.vat v).loadReport = none ∧ (t.hallmarked = true → u.rfld .assayStatus 1 0 = 1)) ∧
    (t.hallmarked = true ∨ s.rfld .assayPolicy 0 0 = 0 →
      ∀ x, ((versionFault t).or (s.placementFault v m)).or (layoutFault m) = some x →
        ∃ u, exec (.segmentTable v t sig) s = .next u ∧ (u.vat v).ingot = none ∧ (u.vat v).loadReport = some x) ∧
    (t.hallmarked = false → s.rfld .assayPolicy 0 0 = 1 →
      ∃ u, exec (.segmentTable v t sig) s = .next u ∧ (u.vat v).ingot = none ∧ u.rfld .assayStatus 1 0 = 3) ∧
    (t.hallmarked = true → sig = false → versionGood t = true → s.placementGood v m = true → layoutGood m = true →
      ∃ u, exec (.segmentTable v t sig) s = .next u ∧ (u.vat v).ingot = none ∧ u.rfld .assayStatus 1 0 = 3 ∧ u.rfld .assayStatus 3 3 = 1)) ∧
  (∀ (s : State) (v : VatId) (g : IngotTable) (idx : Nat), s.modState = 5 → s.vstate v = 0 → (s.vat v).ingot = some g → (s.vat v).placed = false →
    idx < g.segments →
    (∀ (c d : CoreId) (i j : Fin 2048) (w x : Word64) (ok : Bool), movedItem g (.imem c i w) = .imem d j x →
      (s.loaderReach v g (regionOf d) = true → (g.hallmarked = true → ok = true) →
        ∃ u, exec (.ingotSegment v idx [.imem c i w] ok) s = .next u ∧ kfind (u.core d).imem j = some x ∧ idx ∈ (u.vat v).landed ∧
          (u.core d).mem = (s.core d).mem) ∧
      (s.loaderReach v g (regionOf d) = false →
        ∃ u, exec (.ingotSegment v idx [.imem c i w] ok) s = .next u ∧ (u.vat v).ingot = none ∧ (u.vat v).loadReport = some (.item idx 0) ∧
          u.cores = s.cores)) ∧
    (∀ items : List SegItem, (s.loadItems v g idx 0 items).2 = none → g.hallmarked = true →
      ∃ u, exec (.ingotSegment v idx items false) s = .next u ∧ (u.vat v).ingot = none ∧ u.rfld .assayStatus 1 0 = 3 ∧
        u.rfld .assayStatus 31 4 = idx % 2 ^ 28 ∧ (u.vat v).loadReport = some (.digest idx))) ∧
  (∀ (s : State) (v : VatId) (g : IngotTable), (s.vat v).ingot = some g → (s.vat v).placed = false →
    ((∀ i, i < g.segments → i ∈ (s.vat v).landed) → s.vstate v = 0 ∨ s.vstate v = 4 →
      (s.finalFault g = none →
        ∃ u, exec (.vatLoaded v) s = .next u ∧ (u.vat v).placed = true ∧
          fld (u.shadowOf (.vat v .vatBeat)) 3 0 = g.kMinus1.toNat ∧ fld (u.shadowOf (.vat v .vatBeat)) 11 4 = g.slipLimit.toNat ∧
          (g.hallmarked = true → u.rfld .assayStatus 1 0 = 2) ∧ ((∀ x ∈ g.stages, x.spans = []) → u.cores = s.cores) ∧
          (s.vstate v = 0 → u.vstate v = 1) ∧ (s.vstate v = 4 → u.vstate v = 4)) ∧
      (∀ x, s.finalFault g = some x →
        ∃ u, exec (.vatLoaded v) s = .next u ∧ (u.vat v).ingot = none ∧ (u.vat v).loadReport = some x ∧ u.cores = s.cores)) ∧
    (∀ i, i < g.segments → i ∉ (s.vat v).landed → exec (.vatLoaded v) s = .next s))

/-! ## The whole machine -/

/-- R191, R192: every instruction of Yiltil, with every operand at every value its fields admit, is read back from its own word; a word outside the opcode map
reads as an illegal opcode, and no word spells two instructions of a thread. -/
def Obligations.InstructionWordRoundTrip : Prop :=
  (∀ (i : Instr) (w : Word64) (t : Site) (cyc : BitVec 24), i.wf = true → encodeYiltil i = some w → siteOf i = some (t, cyc) →
    decodeYiltil t cyc w = i) ∧
  (∀ (w : Word64) (t : Site) (cyc : BitVec 24), (decodeYiltil t cyc w).wf = true ∧ encodeYiltil (decodeYiltil t cyc w) = some w) ∧
  (∀ (w : Word64) (t : Site) (cyc : BitVec 24), inOpcodeMap (w.toNat % 256) = false → decodeYiltil t cyc w = .illegalOpcode t w)

/-- Every command keeps the memories canonical: the local memory of each core, the memory stacks and what came down the load tree. -/
def Obligations.StepKeepsMemoryCanonical : Prop :=
  ∀ s u : State, s.memOk = true → step s = .next u → u.memOk = true

/-- Right after reset the module is OFF with no command waiting, its memories are canonical, and registers read as the Reset columns say. -/
def Obligations.ResetState : Prop :=
  State.reset.pending = [] ∧ State.reset.memOk = true ∧ State.reset.modState = 0 ∧ State.reset.period = 1000 ∧
  State.reset.getReg .thermCtrl = 0xB8BE ∧ State.reset.getReg .tickCount = 0 ∧ State.reset.getReg .assayPolicy = 0 ∧
  (∀ v, State.reset.vstate v = 0 ∧ State.reset.vfld v .kvLimit 16 0 = 65536 ∧ State.reset.vfld v .vatBeat 11 4 = 64 ∧
    State.reset.vfld v (.vatFault 0) 7 0 = 0) ∧
  (∀ n, State.reset.queEn n = false ∧ State.reset.rfld (.queCq n 1) 28 28 = 1) ∧
  (∀ r, State.reset.regionOn r = false ∧ State.reset.regionRetired r = false) ∧
  (∀ c : CoreId, State.reset.vatOf c = none ∧ ∀ t, ((State.reset.core c).thread t).status = .idle)
end

