-- ==== Sys2Proof/Laws/Map.lean ====
section
/-! SUPPORT. Laws of tables, of byte memory and of bit fields: a read after a write, what a write leaves alone, and the canonical form. -/

namespace Sys2Proof.Machine

/-! ## Tables -/

variable {κ α : Type} [DecidableEq κ]

theorem kfind_kdel_ne (m : KMap κ α) {x y : κ} (h : y ≠ x) : kfind (kdel m x) y = kfind m y := by
  induction m with
  | nil => rfl
  | cons p m ih =>
    obtain ⟨k, v⟩ := p
    by_cases hk : k = x
    · subst hk
      have h1 : kdel ((k, v) :: m) k = kdel m k := by simp [kdel]
      rw [h1, ih]
      simp [kfind, Ne.symm h]
    · have h1 : kdel ((k, v) :: m) x = (k, v) :: kdel m x := by simp [kdel, hk]
      rw [h1]
      simp only [kfind, ih]

@[simp] theorem kfind_kset_self (m : KMap κ α) (x : κ) (v : α) : kfind (kset m x v) x = some v := by simp [kset, kfind]

theorem kfind_kset_ne (m : KMap κ α) {x y : κ} (v : α) (h : y ≠ x) : kfind (kset m x v) y = kfind m y := by
  rw [kset, kfind, if_neg (Ne.symm h), kfind_kdel_ne m h]

theorem kfind_kset (m : KMap κ α) (x y : κ) (v : α) : kfind (kset m x v) y = if y = x then some v else kfind m y := by
  by_cases h : y = x
  · subst h; simp
  · rw [kfind_kset_ne m v h, if_neg h]

@[simp] theorem kget_kset_self (d : α) (m : KMap κ α) (x : κ) (v : α) : kget d (kset m x v) x = v := by simp [kget]

theorem kget_kset_ne (d : α) (m : KMap κ α) {x y : κ} (v : α) (h : y ≠ x) : kget d (kset m x v) y = kget d m y := by
  rw [kget, kget, kfind_kset_ne m v h]

theorem kget_kset (d : α) (m : KMap κ α) (x y : κ) (v : α) : kget d (kset m x v) y = if y = x then v else kget d m y := by
  by_cases h : y = x
  · subst h; simp
  · rw [kget_kset_ne d m v h, if_neg h]

@[simp] theorem kget_nil (d : α) (x : κ) : kget d ([] : KMap κ α) x = d := rfl

/-! ## Byte memory -/

theorem memGet_memSet (m : Mem) (h : memWf m = true) (x y : Nat) (v : Byte) :
    memGet (memSet m x v) y = if y = x then v else memGet m y := by
  suffices H : ∀ (m : Mem), memWf m = true → (∀ c ∈ m.head?, ∀ z, z < c.1 → memGet m z = 0) ∧
      memGet (memSet m x v) y = if y = x then v else memGet m y from (H m h).2
  intro m
  induction m with
  | nil => intro _; refine ⟨by simp, ?_⟩; by_cases hv : v = 0#8 <;> by_cases hy : y = x <;> simp [memSet, memGet, hv, hy, Ne.symm]
  | cons p m ih =>
    obtain ⟨a, b⟩ := p
    intro hw
    have hm : memWf m = true := by
      cases m with
      | nil => rfl
      | cons q m => obtain ⟨c, d⟩ := q; simp only [memWf, Bool.and_eq_true] at hw; exact hw.2
    have low : ∀ z, z < a → memGet ((a, b) :: m) z = 0 := by
      intro z hz
      simp only [memGet]
      rw [if_neg (by omega)]
      cases m with
      | nil => rfl
      | cons q m =>
        obtain ⟨c, d⟩ := q
        simp only [memWf, Bool.and_eq_true, decide_eq_true_eq] at hw
        exact (ih hm).1 (c, d) (by simp) z (by simp; omega)
    have at0 : ∀ z, z ≤ a → memGet m z = 0 := by
      intro z hz
      cases m with
      | nil => rfl
      | cons q m =>
        obtain ⟨c, d⟩ := q
        simp only [memWf, Bool.and_eq_true, decide_eq_true_eq] at hw
        exact (ih hm).1 (c, d) (by simp) z (by simp; omega)
    refine ⟨by simpa using low, ?_⟩
    simp only [memSet]
    by_cases h1 : x < a
    · rw [if_pos h1]
      by_cases hv : v = 0
      · rw [if_pos hv]
        by_cases hy : y = x
        · subst hy; rw [if_pos rfl, low y h1, hv]
        · rw [if_neg hy]
      · rw [if_neg hv]
        by_cases hy : y = x
        · subst hy; simp [memGet]
        · rw [if_neg hy]; simp [memGet, Ne.symm hy]
    · rw [if_neg h1]
      by_cases h2 : x = a
      · subst h2
        rw [if_pos rfl]
        by_cases hv : v = 0
        · rw [if_pos hv]
          by_cases hy : y = x
          · subst hy; rw [if_pos rfl, at0 y (Nat.le_refl _), hv]
          · rw [if_neg hy]; simp [memGet, Ne.symm hy]
        · rw [if_neg hv]
          by_cases hy : y = x
          · subst hy; simp [memGet]
          · rw [if_neg hy]; simp [memGet, Ne.symm hy]
      · rw [if_neg h2]
        simp only [memGet]
        rw [(ih hm).2]
        by_cases hy : y = x
        · subst hy; rw [if_pos rfl, if_pos rfl, if_neg (Ne.symm h2)]
        · rw [if_neg hy, if_neg hy]

theorem memWf_cons {a : Nat} {b : Byte} {m : Mem} :
    memWf ((a, b) :: m) = true ↔ b ≠ 0 ∧ (∀ c ∈ m.head?, a < c.1) ∧ memWf m = true := by
  cases m with
  | nil => simp [memWf]
  | cons q m => obtain ⟨c, d⟩ := q; simp [memWf, and_assoc]

theorem memWf_memSet (m : Mem) (h : memWf m = true) (x : Nat) (v : Byte) : memWf (memSet m x v) = true := by
  suffices H : ∀ (m : Mem), memWf m = true →
      memWf (memSet m x v) = true ∧ ∀ c ∈ (memSet m x v).head?, c.1 = x ∨ ∃ d ∈ m.head?, d.1 ≤ c.1 from (H m h).1
  intro m
  induction m with
  | nil => intro _; by_cases hv : v = 0#8 <;> simp [memSet, hv, memWf]
  | cons p m ih =>
    obtain ⟨a, b⟩ := p
    intro hw
    obtain ⟨hb, hh, hm⟩ := memWf_cons.1 hw
    simp only [memSet]
    by_cases h1 : x < a
    · rw [if_pos h1]
      by_cases hv : v = 0
      · rw [if_pos hv]; exact ⟨hw, by simp⟩
      · rw [if_neg hv]; exact ⟨memWf_cons.2 ⟨hv, by simpa using h1, hw⟩, by simp⟩
    · rw [if_neg h1]
      by_cases h2 : x = a
      · subst h2
        rw [if_pos rfl]
        by_cases hv : v = 0
        · rw [if_pos hv]
          exact ⟨hm, fun c hc => .inr ⟨(x, b), by simp, Nat.le_of_lt (hh c hc)⟩⟩
        · rw [if_neg hv]; exact ⟨memWf_cons.2 ⟨hv, hh, hm⟩, by simp⟩
      · rw [if_neg h2]
        refine ⟨memWf_cons.2 ⟨hb, ?_, (ih hm).1⟩, by simp⟩
        intro c hc
        rcases (ih hm).2 c hc with h3 | ⟨d, hd, h3⟩
        · omega
        · have := hh d hd; omega

theorem memWf_memPut (bs : List Byte) : ∀ (m : Mem) (a : Nat), memWf m = true → memWf (memPut m a bs) = true := by
  induction bs with
  | nil => intro m a h; exact h
  | cons b bs ih => intro m a h; exact ih _ _ (memWf_memSet m h a b)

theorem memWf_filter (p : Nat × Byte → Bool) : ∀ (m : Mem), memWf m = true → memWf (m.filter p) = true := by
  intro m
  suffices H : memWf m = true → memWf (m.filter p) = true ∧ ∀ c ∈ (m.filter p).head?, ∃ d ∈ m.head?, d.1 ≤ c.1 from fun h => (H h).1
  induction m with
  | nil => intro _; simp [memWf]
  | cons q m ih =>
    obtain ⟨a, b⟩ := q
    intro hw
    obtain ⟨hb, hh, hm⟩ := memWf_cons.1 hw
    have hlt : ∀ c ∈ (m.filter p).head?, a < c.1 := by
      intro c hc
      obtain ⟨d, hd, h3⟩ := (ih hm).2 c hc
      have := hh d hd
      omega
    by_cases hp : p (a, b) = true
    · rw [List.filter_cons_of_pos hp]
      exact ⟨memWf_cons.2 ⟨hb, hlt, (ih hm).1⟩, by simp⟩
    · rw [List.filter_cons_of_neg hp]
      exact ⟨(ih hm).1, fun c hc => ⟨(a, b), by simp, Nat.le_of_lt (hlt c hc)⟩⟩

theorem memWf_memClear (m : Mem) (h : memWf m = true) (lo hi : Nat) : memWf (memClear m lo hi) = true := memWf_filter _ m h

/-- A write of consecutive bytes, read back: the byte at an offset inside, the old byte outside. -/
theorem memGet_memPut (bs : List Byte) : ∀ (m : Mem) (a y : Nat), memWf m = true →
    memGet (memPut m a bs) y = if a ≤ y ∧ y < a + bs.length then bs.getD (y - a) 0 else memGet m y := by
  induction bs with
  | nil => intro m a y _; rw [memPut, if_neg (by simp)]
  | cons b bs ih =>
    intro m a y h
    rw [memPut, ih _ _ _ (memWf_memSet m h a b), memGet_memSet m h, List.length_cons]
    by_cases hy : y = a
    · subst hy; rw [if_neg (by omega), if_pos rfl, if_pos (by omega)]; simp
    · by_cases hi : a + 1 ≤ y ∧ y < a + 1 + bs.length
      · rw [if_pos hi, if_pos (by omega)]
        obtain ⟨k, hk⟩ : ∃ k, y - a = k + 1 := ⟨y - a - 1, by omega⟩
        rw [hk, List.getD_cons_succ, show y - (a + 1) = k by omega]
      · rw [if_neg hi, if_neg hy, if_neg (by omega)]

@[simp] theorem memBytes_length (m : Mem) (n : Nat) : ∀ a, (memBytes m a n).length = n := by
  induction n with
  | zero => intro a; rfl
  | succ n ih => intro a; simp [memBytes, ih]

/-! ## Bit fields -/

@[simp] theorem leBytes_length (n : Nat) : ∀ v, (leBytes n v).length = n := by
  induction n with
  | zero => intro v; rfl
  | succ n ih => intro v; simp [leBytes, ih]

/-- A number below a product, from its quotient and remainder. -/
theorem mix_lt {A B a b : Nat} (ha : a < A) (hb : b < B) : b * A + a < B * A := by
  calc b * A + a < b * A + A := by omega
    _ = (b + 1) * A := by ring
    _ ≤ B * A := Nat.mul_le_mul_right A hb

/-- The value of a word with a field put: nothing wraps. -/
theorem toNat_putFld (w : Word64) {hi lo : Nat} (v : Nat) (h : lo ≤ hi) (h64 : hi < 64) :
    (putFld w hi lo v).toNat = (w.toNat / 2 ^ (hi + 1) * 2 ^ (hi - lo + 1) + v % 2 ^ (hi - lo + 1)) * 2 ^ lo + w.toNat % 2 ^ lo := by
  have hs : (2 : Nat) ^ (hi + 1) = 2 ^ (hi - lo + 1) * 2 ^ lo := by rw [← Nat.pow_add]; congr 1; omega
  have h1 : w.toNat / 2 ^ (hi + 1) < 2 ^ (63 - hi) := by
    rw [Nat.div_lt_iff_lt_mul (by positivity), ← Nat.pow_add, show 63 - hi + (hi + 1) = 64 by omega]
    exact w.isLt
  have h2 := mix_lt (Nat.mod_lt w.toNat (show 0 < 2 ^ lo by positivity))
    (mix_lt (Nat.mod_lt v (show 0 < 2 ^ (hi - lo + 1) by positivity)) h1)
  have h3 : (2 : Nat) ^ (63 - hi) * 2 ^ (hi - lo + 1) * 2 ^ lo = 2 ^ 64 := by
    rw [← Nat.pow_add, ← Nat.pow_add]; congr 1; omega
  rw [h3] at h2
  unfold putFld w64
  rw [BitVec.toNat_ofNat, Nat.mod_eq_of_lt]
  · rw [hs]; ring
  · rw [hs] at *; calc _ = _ := by ring
      _ < _ := h2

/-- A field reads as it was put. -/
theorem fld_putFld (w : Word64) {hi lo : Nat} (v : Nat) (h : lo ≤ hi) (h64 : hi < 64) :
    fld (putFld w hi lo v) hi lo = v % 2 ^ (hi - lo + 1) := by
  have hp : 0 < 2 ^ lo := by positivity
  rw [fld, toNat_putFld w v h h64, Nat.mul_comm _ (2 ^ lo), Nat.mul_add_div hp, Nat.div_eq_of_lt (Nat.mod_lt _ hp), Nat.add_zero,
    Nat.add_comm, Nat.add_mul_mod_self_right, Nat.mod_mod]

/-- A field above the one put is as before. -/
theorem fld_putFld_above (w : Word64) {hi lo h l : Nat} (v : Nat) (h1 : lo ≤ hi) (h64 : hi < 64) (ha : hi < l) :
    fld (putFld w hi lo v) h l = fld w h l := by
  have hp : 0 < 2 ^ lo := by positivity
  have hq : 0 < 2 ^ (hi - lo + 1) := by positivity
  have hl : (2 : Nat) ^ l = 2 ^ lo * 2 ^ (hi - lo + 1) * 2 ^ (l - (hi + 1)) := by rw [← Nat.pow_add, ← Nat.pow_add]; congr 1; omega
  have hs : (2 : Nat) ^ (hi + 1) = 2 ^ lo * 2 ^ (hi - lo + 1) := by rw [← Nat.pow_add]; congr 1; omega
  rw [fld, fld, toNat_putFld w v h1 h64, hl, ← Nat.div_div_eq_div_mul, ← Nat.div_div_eq_div_mul, ← Nat.div_div_eq_div_mul,
    ← hs, Nat.mul_comm _ (2 ^ lo), Nat.mul_add_div hp, Nat.div_eq_of_lt (Nat.mod_lt _ hp), Nat.add_zero,
    Nat.mul_comm _ (2 ^ (hi - lo + 1)), Nat.mul_add_div hq, Nat.div_eq_of_lt (Nat.mod_lt _ hq), Nat.add_zero]

/-- A field below the one put is as before. -/
theorem fld_putFld_below (w : Word64) {hi lo h l : Nat} (v : Nat) (h1 : lo ≤ hi) (h64 : hi < 64) (hb : h < lo) (hl : l ≤ h) :
    fld (putFld w hi lo v) h l = fld w h l := by
  have hd : (2 : Nat) ^ lo = 2 ^ (h + 1) * 2 ^ (lo - (h + 1)) := by rw [← Nat.pow_add]; congr 1; omega
  have key : ∀ n : Nat, n / 2 ^ l % 2 ^ (h - l + 1) = n % 2 ^ (h + 1) / 2 ^ l := by
    intro n
    have : (2 : Nat) ^ (h + 1) = 2 ^ l * 2 ^ (h - l + 1) := by rw [← Nat.pow_add]; congr 1; omega
    rw [this, Nat.mod_mul_right_div_self]
  rw [fld, fld, key, key, toNat_putFld w v h1 h64, hd, Nat.add_comm, ← Nat.mul_assoc, Nat.mul_right_comm, Nat.add_mul_mod_self_right,
    Nat.mod_mul_right_mod]

end Sys2Proof.Machine
end

