-- ==== Sys2Proof/Laws/State.lean ====
section
/-! SUPPORT. What each elementary update of the state leaves in each field: one lemma per field and update, so that no proof unfolds a
record update. -/

namespace Sys2Proof.Machine

variable (s : State)

/-! ## setReg -/

@[simp] theorem State.setReg_pending (r : Reg) (w : Word64) : (s.setReg r w).pending = s.pending := rfl
@[simp] theorem State.setReg_regs (r : Reg) (w : Word64) : (s.setReg r w).regs = kset s.regs r w := rfl
@[simp] theorem State.setReg_shadow (r : Reg) (w : Word64) : (s.setReg r w).shadow = s.shadow := rfl
@[simp] theorem State.setReg_staged (r : Reg) (w : Word64) : (s.setReg r w).staged = s.staged := rfl
@[simp] theorem State.setReg_meshStaged (r : Reg) (w : Word64) : (s.setReg r w).meshStaged = s.meshStaged := rfl
@[simp] theorem State.setReg_tickNorth (r : Reg) (w : Word64) : (s.setReg r w).tickNorth = s.tickNorth := rfl
@[simp] theorem State.setReg_tickSouth (r : Reg) (w : Word64) : (s.setReg r w).tickSouth = s.tickSouth := rfl
@[simp] theorem State.setReg_runNorth (r : Reg) (w : Word64) : (s.setReg r w).runNorth = s.runNorth := rfl
@[simp] theorem State.setReg_runSouth (r : Reg) (w : Word64) : (s.setReg r w).runSouth = s.runSouth := rfl
@[simp] theorem State.setReg_cores (r : Reg) (w : Word64) : (s.setReg r w).cores = s.cores := rfl
@[simp] theorem State.setReg_routers (r : Reg) (w : Word64) : (s.setReg r w).routers = s.routers := rfl
@[simp] theorem State.setReg_seams (r : Reg) (w : Word64) : (s.setReg r w).seams = s.seams := rfl
@[simp] theorem State.setReg_rims (r : Reg) (w : Word64) : (s.setReg r w).rims = s.rims := rfl
@[simp] theorem State.setReg_notifies (r : Reg) (w : Word64) : (s.setReg r w).notifies = s.notifies := rfl
@[simp] theorem State.setReg_ctrVat (r : Reg) (w : Word64) : (s.setReg r w).ctrVat = s.ctrVat := rfl
@[simp] theorem State.setReg_scheds (r : Reg) (w : Word64) : (s.setReg r w).scheds = s.scheds := rfl
@[simp] theorem State.setReg_flows (r : Reg) (w : Word64) : (s.setReg r w).flows = s.flows := rfl
@[simp] theorem State.setReg_vats (r : Reg) (w : Word64) : (s.setReg r w).vats = s.vats := rfl
@[simp] theorem State.setReg_queues (r : Reg) (w : Word64) : (s.setReg r w).queues = s.queues := rfl
@[simp] theorem State.setReg_ctrs (r : Reg) (w : Word64) : (s.setReg r w).ctrs = s.ctrs := rfl
@[simp] theorem State.setReg_custs (r : Reg) (w : Word64) : (s.setReg r w).custs = s.custs := rfl
@[simp] theorem State.setReg_links (r : Reg) (w : Word64) : (s.setReg r w).links = s.links := rfl
@[simp] theorem State.setReg_twin (r : Reg) (w : Word64) : (s.setReg r w).twin = s.twin := rfl
@[simp] theorem State.setReg_stackMem (r : Reg) (w : Word64) : (s.setReg r w).stackMem = s.stackMem := rfl
@[simp] theorem State.setReg_tree (r : Reg) (w : Word64) : (s.setReg r w).tree = s.tree := rfl
@[simp] theorem State.setReg_stackDouble (r : Reg) (w : Word64) : (s.setReg r w).stackDouble = s.stackDouble := rfl
@[simp] theorem State.setReg_stackSingle (r : Reg) (w : Word64) : (s.setReg r w).stackSingle = s.stackSingle := rfl
@[simp] theorem State.setReg_stackLog (r : Reg) (w : Word64) : (s.setReg r w).stackLog = s.stackLog := rfl
@[simp] theorem State.setReg_presses (r : Reg) (w : Word64) : (s.setReg r w).presses = s.presses := rfl
@[simp] theorem State.setReg_pow (r : Reg) (w : Word64) : (s.setReg r w).pow = s.pow := rfl
@[simp] theorem State.setReg_therm (r : Reg) (w : Word64) : (s.setReg r w).therm = s.therm := rfl
@[simp] theorem State.setReg_host (r : Reg) (w : Word64) : (s.setReg r w).host = s.host := rfl
@[simp] theorem State.setReg_reports (r : Reg) (w : Word64) : (s.setReg r w).reports = s.reports := rfl
@[simp] theorem State.setReg_recipes (r : Reg) (w : Word64) : (s.setReg r w).recipes = s.recipes := rfl
@[simp] theorem State.setReg_out (r : Reg) (w : Word64) : (s.setReg r w).out = s.out := rfl
@[simp] theorem State.setReg_smbus (r : Reg) (w : Word64) : (s.setReg r w).smbus = s.smbus := rfl
@[simp] theorem State.setReg_seq (r : Reg) (w : Word64) : (s.setReg r w).seq = s.seq := rfl
@[simp] theorem State.setReg_freeCtr (r : Reg) (w : Word64) : (s.setReg r w).freeCtr = s.freeCtr := rfl

/-! ## setCore -/

@[simp] theorem State.setCore_pending (c : CoreId) (k : Core) : (s.setCore c k).pending = s.pending := rfl
@[simp] theorem State.setCore_regs (c : CoreId) (k : Core) : (s.setCore c k).regs = s.regs := rfl
@[simp] theorem State.setCore_shadow (c : CoreId) (k : Core) : (s.setCore c k).shadow = s.shadow := rfl
@[simp] theorem State.setCore_staged (c : CoreId) (k : Core) : (s.setCore c k).staged = s.staged := rfl
@[simp] theorem State.setCore_meshStaged (c : CoreId) (k : Core) : (s.setCore c k).meshStaged = s.meshStaged := rfl
@[simp] theorem State.setCore_tickNorth (c : CoreId) (k : Core) : (s.setCore c k).tickNorth = s.tickNorth := rfl
@[simp] theorem State.setCore_tickSouth (c : CoreId) (k : Core) : (s.setCore c k).tickSouth = s.tickSouth := rfl
@[simp] theorem State.setCore_runNorth (c : CoreId) (k : Core) : (s.setCore c k).runNorth = s.runNorth := rfl
@[simp] theorem State.setCore_runSouth (c : CoreId) (k : Core) : (s.setCore c k).runSouth = s.runSouth := rfl
@[simp] theorem State.setCore_cores (c : CoreId) (k : Core) : (s.setCore c k).cores = kset s.cores c k := rfl
@[simp] theorem State.setCore_routers (c : CoreId) (k : Core) : (s.setCore c k).routers = s.routers := rfl
@[simp] theorem State.setCore_seams (c : CoreId) (k : Core) : (s.setCore c k).seams = s.seams := rfl
@[simp] theorem State.setCore_rims (c : CoreId) (k : Core) : (s.setCore c k).rims = s.rims := rfl
@[simp] theorem State.setCore_notifies (c : CoreId) (k : Core) : (s.setCore c k).notifies = s.notifies := rfl
@[simp] theorem State.setCore_ctrVat (c : CoreId) (k : Core) : (s.setCore c k).ctrVat = s.ctrVat := rfl
@[simp] theorem State.setCore_scheds (c : CoreId) (k : Core) : (s.setCore c k).scheds = s.scheds := rfl
@[simp] theorem State.setCore_flows (c : CoreId) (k : Core) : (s.setCore c k).flows = s.flows := rfl
@[simp] theorem State.setCore_vats (c : CoreId) (k : Core) : (s.setCore c k).vats = s.vats := rfl
@[simp] theorem State.setCore_queues (c : CoreId) (k : Core) : (s.setCore c k).queues = s.queues := rfl
@[simp] theorem State.setCore_ctrs (c : CoreId) (k : Core) : (s.setCore c k).ctrs = s.ctrs := rfl
@[simp] theorem State.setCore_custs (c : CoreId) (k : Core) : (s.setCore c k).custs = s.custs := rfl
@[simp] theorem State.setCore_links (c : CoreId) (k : Core) : (s.setCore c k).links = s.links := rfl
@[simp] theorem State.setCore_twin (c : CoreId) (k : Core) : (s.setCore c k).twin = s.twin := rfl
@[simp] theorem State.setCore_stackMem (c : CoreId) (k : Core) : (s.setCore c k).stackMem = s.stackMem := rfl
@[simp] theorem State.setCore_tree (c : CoreId) (k : Core) : (s.setCore c k).tree = s.tree := rfl
@[simp] theorem State.setCore_stackDouble (c : CoreId) (k : Core) : (s.setCore c k).stackDouble = s.stackDouble := rfl
@[simp] theorem State.setCore_stackSingle (c : CoreId) (k : Core) : (s.setCore c k).stackSingle = s.stackSingle := rfl
@[simp] theorem State.setCore_stackLog (c : CoreId) (k : Core) : (s.setCore c k).stackLog = s.stackLog := rfl
@[simp] theorem State.setCore_presses (c : CoreId) (k : Core) : (s.setCore c k).presses = s.presses := rfl
@[simp] theorem State.setCore_pow (c : CoreId) (k : Core) : (s.setCore c k).pow = s.pow := rfl
@[simp] theorem State.setCore_therm (c : CoreId) (k : Core) : (s.setCore c k).therm = s.therm := rfl
@[simp] theorem State.setCore_host (c : CoreId) (k : Core) : (s.setCore c k).host = s.host := rfl
@[simp] theorem State.setCore_reports (c : CoreId) (k : Core) : (s.setCore c k).reports = s.reports := rfl
@[simp] theorem State.setCore_recipes (c : CoreId) (k : Core) : (s.setCore c k).recipes = s.recipes := rfl
@[simp] theorem State.setCore_out (c : CoreId) (k : Core) : (s.setCore c k).out = s.out := rfl
@[simp] theorem State.setCore_smbus (c : CoreId) (k : Core) : (s.setCore c k).smbus = s.smbus := rfl
@[simp] theorem State.setCore_seq (c : CoreId) (k : Core) : (s.setCore c k).seq = s.seq := rfl
@[simp] theorem State.setCore_freeCtr (c : CoreId) (k : Core) : (s.setCore c k).freeCtr = s.freeCtr := rfl

/-! ## setVat -/

@[simp] theorem State.setVat_pending (v : VatId) (x : Vat) : (s.setVat v x).pending = s.pending := rfl
@[simp] theorem State.setVat_regs (v : VatId) (x : Vat) : (s.setVat v x).regs = s.regs := rfl
@[simp] theorem State.setVat_shadow (v : VatId) (x : Vat) : (s.setVat v x).shadow = s.shadow := rfl
@[simp] theorem State.setVat_staged (v : VatId) (x : Vat) : (s.setVat v x).staged = s.staged := rfl
@[simp] theorem State.setVat_meshStaged (v : VatId) (x : Vat) : (s.setVat v x).meshStaged = s.meshStaged := rfl
@[simp] theorem State.setVat_tickNorth (v : VatId) (x : Vat) : (s.setVat v x).tickNorth = s.tickNorth := rfl
@[simp] theorem State.setVat_tickSouth (v : VatId) (x : Vat) : (s.setVat v x).tickSouth = s.tickSouth := rfl
@[simp] theorem State.setVat_runNorth (v : VatId) (x : Vat) : (s.setVat v x).runNorth = s.runNorth := rfl
@[simp] theorem State.setVat_runSouth (v : VatId) (x : Vat) : (s.setVat v x).runSouth = s.runSouth := rfl
@[simp] theorem State.setVat_cores (v : VatId) (x : Vat) : (s.setVat v x).cores = s.cores := rfl
@[simp] theorem State.setVat_routers (v : VatId) (x : Vat) : (s.setVat v x).routers = s.routers := rfl
@[simp] theorem State.setVat_seams (v : VatId) (x : Vat) : (s.setVat v x).seams = s.seams := rfl
@[simp] theorem State.setVat_rims (v : VatId) (x : Vat) : (s.setVat v x).rims = s.rims := rfl
@[simp] theorem State.setVat_notifies (v : VatId) (x : Vat) : (s.setVat v x).notifies = s.notifies := rfl
@[simp] theorem State.setVat_ctrVat (v : VatId) (x : Vat) : (s.setVat v x).ctrVat = s.ctrVat := rfl
@[simp] theorem State.setVat_scheds (v : VatId) (x : Vat) : (s.setVat v x).scheds = s.scheds := rfl
@[simp] theorem State.setVat_flows (v : VatId) (x : Vat) : (s.setVat v x).flows = s.flows := rfl
@[simp] theorem State.setVat_vats (v : VatId) (x : Vat) : (s.setVat v x).vats = kset s.vats v x := rfl
@[simp] theorem State.setVat_queues (v : VatId) (x : Vat) : (s.setVat v x).queues = s.queues := rfl
@[simp] theorem State.setVat_ctrs (v : VatId) (x : Vat) : (s.setVat v x).ctrs = s.ctrs := rfl
@[simp] theorem State.setVat_custs (v : VatId) (x : Vat) : (s.setVat v x).custs = s.custs := rfl
@[simp] theorem State.setVat_links (v : VatId) (x : Vat) : (s.setVat v x).links = s.links := rfl
@[simp] theorem State.setVat_twin (v : VatId) (x : Vat) : (s.setVat v x).twin = s.twin := rfl
@[simp] theorem State.setVat_stackMem (v : VatId) (x : Vat) : (s.setVat v x).stackMem = s.stackMem := rfl
@[simp] theorem State.setVat_tree (v : VatId) (x : Vat) : (s.setVat v x).tree = s.tree := rfl
@[simp] theorem State.setVat_stackDouble (v : VatId) (x : Vat) : (s.setVat v x).stackDouble = s.stackDouble := rfl
@[simp] theorem State.setVat_stackSingle (v : VatId) (x : Vat) : (s.setVat v x).stackSingle = s.stackSingle := rfl
@[simp] theorem State.setVat_stackLog (v : VatId) (x : Vat) : (s.setVat v x).stackLog = s.stackLog := rfl
@[simp] theorem State.setVat_presses (v : VatId) (x : Vat) : (s.setVat v x).presses = s.presses := rfl
@[simp] theorem State.setVat_pow (v : VatId) (x : Vat) : (s.setVat v x).pow = s.pow := rfl
@[simp] theorem State.setVat_therm (v : VatId) (x : Vat) : (s.setVat v x).therm = s.therm := rfl
@[simp] theorem State.setVat_host (v : VatId) (x : Vat) : (s.setVat v x).host = s.host := rfl
@[simp] theorem State.setVat_reports (v : VatId) (x : Vat) : (s.setVat v x).reports = s.reports := rfl
@[simp] theorem State.setVat_recipes (v : VatId) (x : Vat) : (s.setVat v x).recipes = s.recipes := rfl
@[simp] theorem State.setVat_out (v : VatId) (x : Vat) : (s.setVat v x).out = s.out := rfl
@[simp] theorem State.setVat_smbus (v : VatId) (x : Vat) : (s.setVat v x).smbus = s.smbus := rfl
@[simp] theorem State.setVat_seq (v : VatId) (x : Vat) : (s.setVat v x).seq = s.seq := rfl
@[simp] theorem State.setVat_freeCtr (v : VatId) (x : Vat) : (s.setVat v x).freeCtr = s.freeCtr := rfl

/-! ## modRouter -/

@[simp] theorem State.modRouter_pending (r : RouterId) (f : Router → Router) : (s.modRouter r f).pending = s.pending := rfl
@[simp] theorem State.modRouter_regs (r : RouterId) (f : Router → Router) : (s.modRouter r f).regs = s.regs := rfl
@[simp] theorem State.modRouter_shadow (r : RouterId) (f : Router → Router) : (s.modRouter r f).shadow = s.shadow := rfl
@[simp] theorem State.modRouter_staged (r : RouterId) (f : Router → Router) : (s.modRouter r f).staged = s.staged := rfl
@[simp] theorem State.modRouter_meshStaged (r : RouterId) (f : Router → Router) : (s.modRouter r f).meshStaged = s.meshStaged := rfl
@[simp] theorem State.modRouter_tickNorth (r : RouterId) (f : Router → Router) : (s.modRouter r f).tickNorth = s.tickNorth := rfl
@[simp] theorem State.modRouter_tickSouth (r : RouterId) (f : Router → Router) : (s.modRouter r f).tickSouth = s.tickSouth := rfl
@[simp] theorem State.modRouter_runNorth (r : RouterId) (f : Router → Router) : (s.modRouter r f).runNorth = s.runNorth := rfl
@[simp] theorem State.modRouter_runSouth (r : RouterId) (f : Router → Router) : (s.modRouter r f).runSouth = s.runSouth := rfl
@[simp] theorem State.modRouter_cores (r : RouterId) (f : Router → Router) : (s.modRouter r f).cores = s.cores := rfl
@[simp] theorem State.modRouter_routers (r : RouterId) (f : Router → Router) : (s.modRouter r f).routers = kset s.routers r (f (s.router r)) := rfl
@[simp] theorem State.modRouter_seams (r : RouterId) (f : Router → Router) : (s.modRouter r f).seams = s.seams := rfl
@[simp] theorem State.modRouter_rims (r : RouterId) (f : Router → Router) : (s.modRouter r f).rims = s.rims := rfl
@[simp] theorem State.modRouter_notifies (r : RouterId) (f : Router → Router) : (s.modRouter r f).notifies = s.notifies := rfl
@[simp] theorem State.modRouter_ctrVat (r : RouterId) (f : Router → Router) : (s.modRouter r f).ctrVat = s.ctrVat := rfl
@[simp] theorem State.modRouter_scheds (r : RouterId) (f : Router → Router) : (s.modRouter r f).scheds = s.scheds := rfl
@[simp] theorem State.modRouter_flows (r : RouterId) (f : Router → Router) : (s.modRouter r f).flows = s.flows := rfl
@[simp] theorem State.modRouter_vats (r : RouterId) (f : Router → Router) : (s.modRouter r f).vats = s.vats := rfl
@[simp] theorem State.modRouter_queues (r : RouterId) (f : Router → Router) : (s.modRouter r f).queues = s.queues := rfl
@[simp] theorem State.modRouter_ctrs (r : RouterId) (f : Router → Router) : (s.modRouter r f).ctrs = s.ctrs := rfl
@[simp] theorem State.modRouter_custs (r : RouterId) (f : Router → Router) : (s.modRouter r f).custs = s.custs := rfl
@[simp] theorem State.modRouter_links (r : RouterId) (f : Router → Router) : (s.modRouter r f).links = s.links := rfl
@[simp] theorem State.modRouter_twin (r : RouterId) (f : Router → Router) : (s.modRouter r f).twin = s.twin := rfl
@[simp] theorem State.modRouter_stackMem (r : RouterId) (f : Router → Router) : (s.modRouter r f).stackMem = s.stackMem := rfl
@[simp] theorem State.modRouter_tree (r : RouterId) (f : Router → Router) : (s.modRouter r f).tree = s.tree := rfl
@[simp] theorem State.modRouter_stackDouble (r : RouterId) (f : Router → Router) : (s.modRouter r f).stackDouble = s.stackDouble := rfl
@[simp] theorem State.modRouter_stackSingle (r : RouterId) (f : Router → Router) : (s.modRouter r f).stackSingle = s.stackSingle := rfl
@[simp] theorem State.modRouter_stackLog (r : RouterId) (f : Router → Router) : (s.modRouter r f).stackLog = s.stackLog := rfl
@[simp] theorem State.modRouter_presses (r : RouterId) (f : Router → Router) : (s.modRouter r f).presses = s.presses := rfl
@[simp] theorem State.modRouter_pow (r : RouterId) (f : Router → Router) : (s.modRouter r f).pow = s.pow := rfl
@[simp] theorem State.modRouter_therm (r : RouterId) (f : Router → Router) : (s.modRouter r f).therm = s.therm := rfl
@[simp] theorem State.modRouter_host (r : RouterId) (f : Router → Router) : (s.modRouter r f).host = s.host := rfl
@[simp] theorem State.modRouter_reports (r : RouterId) (f : Router → Router) : (s.modRouter r f).reports = s.reports := rfl
@[simp] theorem State.modRouter_recipes (r : RouterId) (f : Router → Router) : (s.modRouter r f).recipes = s.recipes := rfl
@[simp] theorem State.modRouter_out (r : RouterId) (f : Router → Router) : (s.modRouter r f).out = s.out := rfl
@[simp] theorem State.modRouter_smbus (r : RouterId) (f : Router → Router) : (s.modRouter r f).smbus = s.smbus := rfl
@[simp] theorem State.modRouter_seq (r : RouterId) (f : Router → Router) : (s.modRouter r f).seq = s.seq := rfl
@[simp] theorem State.modRouter_freeCtr (r : RouterId) (f : Router → Router) : (s.modRouter r f).freeCtr = s.freeCtr := rfl

/-! ## modLink -/

@[simp] theorem State.modLink_pending (l : LinkId) (f : Link → Link) : (s.modLink l f).pending = s.pending := rfl
@[simp] theorem State.modLink_regs (l : LinkId) (f : Link → Link) : (s.modLink l f).regs = s.regs := rfl
@[simp] theorem State.modLink_shadow (l : LinkId) (f : Link → Link) : (s.modLink l f).shadow = s.shadow := rfl
@[simp] theorem State.modLink_staged (l : LinkId) (f : Link → Link) : (s.modLink l f).staged = s.staged := rfl
@[simp] theorem State.modLink_meshStaged (l : LinkId) (f : Link → Link) : (s.modLink l f).meshStaged = s.meshStaged := rfl
@[simp] theorem State.modLink_tickNorth (l : LinkId) (f : Link → Link) : (s.modLink l f).tickNorth = s.tickNorth := rfl
@[simp] theorem State.modLink_tickSouth (l : LinkId) (f : Link → Link) : (s.modLink l f).tickSouth = s.tickSouth := rfl
@[simp] theorem State.modLink_runNorth (l : LinkId) (f : Link → Link) : (s.modLink l f).runNorth = s.runNorth := rfl
@[simp] theorem State.modLink_runSouth (l : LinkId) (f : Link → Link) : (s.modLink l f).runSouth = s.runSouth := rfl
@[simp] theorem State.modLink_cores (l : LinkId) (f : Link → Link) : (s.modLink l f).cores = s.cores := rfl
@[simp] theorem State.modLink_routers (l : LinkId) (f : Link → Link) : (s.modLink l f).routers = s.routers := rfl
@[simp] theorem State.modLink_seams (l : LinkId) (f : Link → Link) : (s.modLink l f).seams = s.seams := rfl
@[simp] theorem State.modLink_rims (l : LinkId) (f : Link → Link) : (s.modLink l f).rims = s.rims := rfl
@[simp] theorem State.modLink_notifies (l : LinkId) (f : Link → Link) : (s.modLink l f).notifies = s.notifies := rfl
@[simp] theorem State.modLink_ctrVat (l : LinkId) (f : Link → Link) : (s.modLink l f).ctrVat = s.ctrVat := rfl
@[simp] theorem State.modLink_scheds (l : LinkId) (f : Link → Link) : (s.modLink l f).scheds = s.scheds := rfl
@[simp] theorem State.modLink_flows (l : LinkId) (f : Link → Link) : (s.modLink l f).flows = s.flows := rfl
@[simp] theorem State.modLink_vats (l : LinkId) (f : Link → Link) : (s.modLink l f).vats = s.vats := rfl
@[simp] theorem State.modLink_queues (l : LinkId) (f : Link → Link) : (s.modLink l f).queues = s.queues := rfl
@[simp] theorem State.modLink_ctrs (l : LinkId) (f : Link → Link) : (s.modLink l f).ctrs = s.ctrs := rfl
@[simp] theorem State.modLink_custs (l : LinkId) (f : Link → Link) : (s.modLink l f).custs = s.custs := rfl
@[simp] theorem State.modLink_links (l : LinkId) (f : Link → Link) : (s.modLink l f).links = kset s.links l (f (s.link l)) := rfl
@[simp] theorem State.modLink_twin (l : LinkId) (f : Link → Link) : (s.modLink l f).twin = s.twin := rfl
@[simp] theorem State.modLink_stackMem (l : LinkId) (f : Link → Link) : (s.modLink l f).stackMem = s.stackMem := rfl
@[simp] theorem State.modLink_tree (l : LinkId) (f : Link → Link) : (s.modLink l f).tree = s.tree := rfl
@[simp] theorem State.modLink_stackDouble (l : LinkId) (f : Link → Link) : (s.modLink l f).stackDouble = s.stackDouble := rfl
@[simp] theorem State.modLink_stackSingle (l : LinkId) (f : Link → Link) : (s.modLink l f).stackSingle = s.stackSingle := rfl
@[simp] theorem State.modLink_stackLog (l : LinkId) (f : Link → Link) : (s.modLink l f).stackLog = s.stackLog := rfl
@[simp] theorem State.modLink_presses (l : LinkId) (f : Link → Link) : (s.modLink l f).presses = s.presses := rfl
@[simp] theorem State.modLink_pow (l : LinkId) (f : Link → Link) : (s.modLink l f).pow = s.pow := rfl
@[simp] theorem State.modLink_therm (l : LinkId) (f : Link → Link) : (s.modLink l f).therm = s.therm := rfl
@[simp] theorem State.modLink_host (l : LinkId) (f : Link → Link) : (s.modLink l f).host = s.host := rfl
@[simp] theorem State.modLink_reports (l : LinkId) (f : Link → Link) : (s.modLink l f).reports = s.reports := rfl
@[simp] theorem State.modLink_recipes (l : LinkId) (f : Link → Link) : (s.modLink l f).recipes = s.recipes := rfl
@[simp] theorem State.modLink_out (l : LinkId) (f : Link → Link) : (s.modLink l f).out = s.out := rfl
@[simp] theorem State.modLink_smbus (l : LinkId) (f : Link → Link) : (s.modLink l f).smbus = s.smbus := rfl
@[simp] theorem State.modLink_seq (l : LinkId) (f : Link → Link) : (s.modLink l f).seq = s.seq := rfl
@[simp] theorem State.modLink_freeCtr (l : LinkId) (f : Link → Link) : (s.modLink l f).freeCtr = s.freeCtr := rfl

/-! ## modQp -/

@[simp] theorem State.modQp_pending (n : QueueId) (f : QPair → QPair) : (s.modQp n f).pending = s.pending := rfl
@[simp] theorem State.modQp_regs (n : QueueId) (f : QPair → QPair) : (s.modQp n f).regs = s.regs := rfl
@[simp] theorem State.modQp_shadow (n : QueueId) (f : QPair → QPair) : (s.modQp n f).shadow = s.shadow := rfl
@[simp] theorem State.modQp_staged (n : QueueId) (f : QPair → QPair) : (s.modQp n f).staged = s.staged := rfl
@[simp] theorem State.modQp_meshStaged (n : QueueId) (f : QPair → QPair) : (s.modQp n f).meshStaged = s.meshStaged := rfl
@[simp] theorem State.modQp_tickNorth (n : QueueId) (f : QPair → QPair) : (s.modQp n f).tickNorth = s.tickNorth := rfl
@[simp] theorem State.modQp_tickSouth (n : QueueId) (f : QPair → QPair) : (s.modQp n f).tickSouth = s.tickSouth := rfl
@[simp] theorem State.modQp_runNorth (n : QueueId) (f : QPair → QPair) : (s.modQp n f).runNorth = s.runNorth := rfl
@[simp] theorem State.modQp_runSouth (n : QueueId) (f : QPair → QPair) : (s.modQp n f).runSouth = s.runSouth := rfl
@[simp] theorem State.modQp_cores (n : QueueId) (f : QPair → QPair) : (s.modQp n f).cores = s.cores := rfl
@[simp] theorem State.modQp_routers (n : QueueId) (f : QPair → QPair) : (s.modQp n f).routers = s.routers := rfl
@[simp] theorem State.modQp_seams (n : QueueId) (f : QPair → QPair) : (s.modQp n f).seams = s.seams := rfl
@[simp] theorem State.modQp_rims (n : QueueId) (f : QPair → QPair) : (s.modQp n f).rims = s.rims := rfl
@[simp] theorem State.modQp_notifies (n : QueueId) (f : QPair → QPair) : (s.modQp n f).notifies = s.notifies := rfl
@[simp] theorem State.modQp_ctrVat (n : QueueId) (f : QPair → QPair) : (s.modQp n f).ctrVat = s.ctrVat := rfl
@[simp] theorem State.modQp_scheds (n : QueueId) (f : QPair → QPair) : (s.modQp n f).scheds = s.scheds := rfl
@[simp] theorem State.modQp_flows (n : QueueId) (f : QPair → QPair) : (s.modQp n f).flows = s.flows := rfl
@[simp] theorem State.modQp_vats (n : QueueId) (f : QPair → QPair) : (s.modQp n f).vats = s.vats := rfl
@[simp] theorem State.modQp_queues (n : QueueId) (f : QPair → QPair) : (s.modQp n f).queues = kset s.queues n (f (s.qp n)) := rfl
@[simp] theorem State.modQp_ctrs (n : QueueId) (f : QPair → QPair) : (s.modQp n f).ctrs = s.ctrs := rfl
@[simp] theorem State.modQp_custs (n : QueueId) (f : QPair → QPair) : (s.modQp n f).custs = s.custs := rfl
@[simp] theorem State.modQp_links (n : QueueId) (f : QPair → QPair) : (s.modQp n f).links = s.links := rfl
@[simp] theorem State.modQp_twin (n : QueueId) (f : QPair → QPair) : (s.modQp n f).twin = s.twin := rfl
@[simp] theorem State.modQp_stackMem (n : QueueId) (f : QPair → QPair) : (s.modQp n f).stackMem = s.stackMem := rfl
@[simp] theorem State.modQp_tree (n : QueueId) (f : QPair → QPair) : (s.modQp n f).tree = s.tree := rfl
@[simp] theorem State.modQp_stackDouble (n : QueueId) (f : QPair → QPair) : (s.modQp n f).stackDouble = s.stackDouble := rfl
@[simp] theorem State.modQp_stackSingle (n : QueueId) (f : QPair → QPair) : (s.modQp n f).stackSingle = s.stackSingle := rfl
@[simp] theorem State.modQp_stackLog (n : QueueId) (f : QPair → QPair) : (s.modQp n f).stackLog = s.stackLog := rfl
@[simp] theorem State.modQp_presses (n : QueueId) (f : QPair → QPair) : (s.modQp n f).presses = s.presses := rfl
@[simp] theorem State.modQp_pow (n : QueueId) (f : QPair → QPair) : (s.modQp n f).pow = s.pow := rfl
@[simp] theorem State.modQp_therm (n : QueueId) (f : QPair → QPair) : (s.modQp n f).therm = s.therm := rfl
@[simp] theorem State.modQp_host (n : QueueId) (f : QPair → QPair) : (s.modQp n f).host = s.host := rfl
@[simp] theorem State.modQp_reports (n : QueueId) (f : QPair → QPair) : (s.modQp n f).reports = s.reports := rfl
@[simp] theorem State.modQp_recipes (n : QueueId) (f : QPair → QPair) : (s.modQp n f).recipes = s.recipes := rfl
@[simp] theorem State.modQp_out (n : QueueId) (f : QPair → QPair) : (s.modQp n f).out = s.out := rfl
@[simp] theorem State.modQp_smbus (n : QueueId) (f : QPair → QPair) : (s.modQp n f).smbus = s.smbus := rfl
@[simp] theorem State.modQp_seq (n : QueueId) (f : QPair → QPair) : (s.modQp n f).seq = s.seq := rfl
@[simp] theorem State.modQp_freeCtr (n : QueueId) (f : QPair → QPair) : (s.modQp n f).freeCtr = s.freeCtr := rfl

/-! ## send -/

@[simp] theorem State.send_pending (o : Out) : (s.send o).pending = s.pending := rfl
@[simp] theorem State.send_regs (o : Out) : (s.send o).regs = s.regs := rfl
@[simp] theorem State.send_shadow (o : Out) : (s.send o).shadow = s.shadow := rfl
@[simp] theorem State.send_staged (o : Out) : (s.send o).staged = s.staged := rfl
@[simp] theorem State.send_meshStaged (o : Out) : (s.send o).meshStaged = s.meshStaged := rfl
@[simp] theorem State.send_tickNorth (o : Out) : (s.send o).tickNorth = s.tickNorth := rfl
@[simp] theorem State.send_tickSouth (o : Out) : (s.send o).tickSouth = s.tickSouth := rfl
@[simp] theorem State.send_runNorth (o : Out) : (s.send o).runNorth = s.runNorth := rfl
@[simp] theorem State.send_runSouth (o : Out) : (s.send o).runSouth = s.runSouth := rfl
@[simp] theorem State.send_cores (o : Out) : (s.send o).cores = s.cores := rfl
@[simp] theorem State.send_routers (o : Out) : (s.send o).routers = s.routers := rfl
@[simp] theorem State.send_seams (o : Out) : (s.send o).seams = s.seams := rfl
@[simp] theorem State.send_rims (o : Out) : (s.send o).rims = s.rims := rfl
@[simp] theorem State.send_notifies (o : Out) : (s.send o).notifies = s.notifies := rfl
@[simp] theorem State.send_ctrVat (o : Out) : (s.send o).ctrVat = s.ctrVat := rfl
@[simp] theorem State.send_scheds (o : Out) : (s.send o).scheds = s.scheds := rfl
@[simp] theorem State.send_flows (o : Out) : (s.send o).flows = s.flows := rfl
@[simp] theorem State.send_vats (o : Out) : (s.send o).vats = s.vats := rfl
@[simp] theorem State.send_queues (o : Out) : (s.send o).queues = s.queues := rfl
@[simp] theorem State.send_ctrs (o : Out) : (s.send o).ctrs = s.ctrs := rfl
@[simp] theorem State.send_custs (o : Out) : (s.send o).custs = s.custs := rfl
@[simp] theorem State.send_links (o : Out) : (s.send o).links = s.links := rfl
@[simp] theorem State.send_twin (o : Out) : (s.send o).twin = s.twin := rfl
@[simp] theorem State.send_stackMem (o : Out) : (s.send o).stackMem = s.stackMem := rfl
@[simp] theorem State.send_tree (o : Out) : (s.send o).tree = s.tree := rfl
@[simp] theorem State.send_stackDouble (o : Out) : (s.send o).stackDouble = s.stackDouble := rfl
@[simp] theorem State.send_stackSingle (o : Out) : (s.send o).stackSingle = s.stackSingle := rfl
@[simp] theorem State.send_stackLog (o : Out) : (s.send o).stackLog = s.stackLog := rfl
@[simp] theorem State.send_presses (o : Out) : (s.send o).presses = s.presses := rfl
@[simp] theorem State.send_pow (o : Out) : (s.send o).pow = s.pow := rfl
@[simp] theorem State.send_therm (o : Out) : (s.send o).therm = s.therm := rfl
@[simp] theorem State.send_host (o : Out) : (s.send o).host = s.host := rfl
@[simp] theorem State.send_reports (o : Out) : (s.send o).reports = s.reports := rfl
@[simp] theorem State.send_recipes (o : Out) : (s.send o).recipes = s.recipes := rfl
@[simp] theorem State.send_out (o : Out) : (s.send o).out = s.out ++ [o] := rfl
@[simp] theorem State.send_smbus (o : Out) : (s.send o).smbus = s.smbus := rfl
@[simp] theorem State.send_seq (o : Out) : (s.send o).seq = s.seq := rfl
@[simp] theorem State.send_freeCtr (o : Out) : (s.send o).freeCtr = s.freeCtr := rfl

/-! ## report -/

@[simp] theorem State.report_pending (r : FaultReport) : (s.report r).pending = s.pending := rfl
@[simp] theorem State.report_regs (r : FaultReport) : (s.report r).regs = s.regs := rfl
@[simp] theorem State.report_shadow (r : FaultReport) : (s.report r).shadow = s.shadow := rfl
@[simp] theorem State.report_staged (r : FaultReport) : (s.report r).staged = s.staged := rfl
@[simp] theorem State.report_meshStaged (r : FaultReport) : (s.report r).meshStaged = s.meshStaged := rfl
@[simp] theorem State.report_tickNorth (r : FaultReport) : (s.report r).tickNorth = s.tickNorth := rfl
@[simp] theorem State.report_tickSouth (r : FaultReport) : (s.report r).tickSouth = s.tickSouth := rfl
@[simp] theorem State.report_runNorth (r : FaultReport) : (s.report r).runNorth = s.runNorth := rfl
@[simp] theorem State.report_runSouth (r : FaultReport) : (s.report r).runSouth = s.runSouth := rfl
@[simp] theorem State.report_cores (r : FaultReport) : (s.report r).cores = s.cores := rfl
@[simp] theorem State.report_routers (r : FaultReport) : (s.report r).routers = s.routers := rfl
@[simp] theorem State.report_seams (r : FaultReport) : (s.report r).seams = s.seams := rfl
@[simp] theorem State.report_rims (r : FaultReport) : (s.report r).rims = s.rims := rfl
@[simp] theorem State.report_notifies (r : FaultReport) : (s.report r).notifies = s.notifies := rfl
@[simp] theorem State.report_ctrVat (r : FaultReport) : (s.report r).ctrVat = s.ctrVat := rfl
@[simp] theorem State.report_scheds (r : FaultReport) : (s.report r).scheds = s.scheds := rfl
@[simp] theorem State.report_flows (r : FaultReport) : (s.report r).flows = s.flows := rfl
@[simp] theorem State.report_vats (r : FaultReport) : (s.report r).vats = s.vats := rfl
@[simp] theorem State.report_queues (r : FaultReport) : (s.report r).queues = s.queues := rfl
@[simp] theorem State.report_ctrs (r : FaultReport) : (s.report r).ctrs = s.ctrs := rfl
@[simp] theorem State.report_custs (r : FaultReport) : (s.report r).custs = s.custs := rfl
@[simp] theorem State.report_links (r : FaultReport) : (s.report r).links = s.links := rfl
@[simp] theorem State.report_twin (r : FaultReport) : (s.report r).twin = s.twin := rfl
@[simp] theorem State.report_stackMem (r : FaultReport) : (s.report r).stackMem = s.stackMem := rfl
@[simp] theorem State.report_tree (r : FaultReport) : (s.report r).tree = s.tree := rfl
@[simp] theorem State.report_stackDouble (r : FaultReport) : (s.report r).stackDouble = s.stackDouble := rfl
@[simp] theorem State.report_stackSingle (r : FaultReport) : (s.report r).stackSingle = s.stackSingle := rfl
@[simp] theorem State.report_stackLog (r : FaultReport) : (s.report r).stackLog = s.stackLog := rfl
@[simp] theorem State.report_presses (r : FaultReport) : (s.report r).presses = s.presses := rfl
@[simp] theorem State.report_pow (r : FaultReport) : (s.report r).pow = s.pow := rfl
@[simp] theorem State.report_therm (r : FaultReport) : (s.report r).therm = s.therm := rfl
@[simp] theorem State.report_host (r : FaultReport) : (s.report r).host = s.host := rfl
@[simp] theorem State.report_reports (r : FaultReport) : (s.report r).reports = s.reports ++ [r] := rfl
@[simp] theorem State.report_recipes (r : FaultReport) : (s.report r).recipes = s.recipes := rfl
@[simp] theorem State.report_out (r : FaultReport) : (s.report r).out = s.out := rfl
@[simp] theorem State.report_smbus (r : FaultReport) : (s.report r).smbus = s.smbus := rfl
@[simp] theorem State.report_seq (r : FaultReport) : (s.report r).seq = s.seq := rfl
@[simp] theorem State.report_freeCtr (r : FaultReport) : (s.report r).freeCtr = s.freeCtr := rfl

end Sys2Proof.Machine
end

