-- ==== Sys2Proof/Laws/Access.lean ====
section
/-! SUPPORT. What each accessor of the state reads after each elementary update, and what an issued instruction can do. -/

namespace Sys2Proof.Machine

variable (s : State)

/-! ## Registers -/

@[simp] theorem State.getReg_setReg_self (r : Reg) (w : Word64) : (s.setReg r w).getReg r = w := by simp [State.getReg]

theorem State.getReg_setReg_ne {r x : Reg} (w : Word64) (h : x ≠ r) : (s.setReg r w).getReg x = s.getReg x := by
  simp [State.getReg, kget_kset_ne _ _ _ h]

theorem State.getReg_setReg (r x : Reg) (w : Word64) : (s.setReg r w).getReg x = if x = r then w else s.getReg x := by
  by_cases h : x = r
  · subst h; simp
  · rw [State.getReg_setReg_ne s w h, if_neg h]

@[simp] theorem State.getReg_putR_self (r : Reg) (hi lo v : Nat) : (s.putR r hi lo v).getReg r = putFld (s.getReg r) hi lo v := by
  simp [State.putR]

theorem State.getReg_putR_ne {r x : Reg} (hi lo v : Nat) (h : x ≠ r) : (s.putR r hi lo v).getReg x = s.getReg x :=
  State.getReg_setReg_ne s _ h

theorem State.rfld_putR_self (r : Reg) {hi lo : Nat} (v : Nat) (h : lo ≤ hi) (h64 : hi < 64) :
    (s.putR r hi lo v).rfld r hi lo = v % 2 ^ (hi - lo + 1) := by
  rw [State.rfld, State.getReg_putR_self, fld_putFld _ v h h64]

theorem State.rfld_putR_ne {r x : Reg} (hi lo v h l : Nat) (hx : x ≠ r) : (s.putR r hi lo v).rfld x h l = s.rfld x h l := by
  rw [State.rfld, State.rfld, State.getReg_putR_ne s hi lo v hx]

theorem State.rfld_putR_above (r : Reg) {hi lo h l : Nat} (v : Nat) (h1 : lo ≤ hi) (h64 : hi < 64) (ha : hi < l) :
    (s.putR r hi lo v).rfld r h l = s.rfld r h l := by
  rw [State.rfld, State.rfld, State.getReg_putR_self, fld_putFld_above _ v h1 h64 ha]

theorem State.rfld_putR_below (r : Reg) {hi lo h l : Nat} (v : Nat) (h1 : lo ≤ hi) (h64 : hi < 64) (hb : h < lo) (hl : l ≤ h) :
    (s.putR r hi lo v).rfld r h l = s.rfld r h l := by
  rw [State.rfld, State.rfld, State.getReg_putR_self, fld_putFld_below _ v h1 h64 hb hl]

/-- Registers are read from the field regs alone. -/
theorem State.getReg_congr {s u : State} (h : s.regs = u.regs) (r : Reg) : s.getReg r = u.getReg r := by rw [State.getReg, State.getReg, h]

/-! ## Vats, queues, links, routers -/

@[simp] theorem State.vat_setVat_self (v : VatId) (x : Vat) : (s.setVat v x).vat v = x := by simp [State.vat]
theorem State.vat_setVat_ne {v u : VatId} (x : Vat) (h : u ≠ v) : (s.setVat v x).vat u = s.vat u := by
  simp [State.vat, kget_kset_ne _ _ _ h]
@[simp] theorem State.vat_modVat_self (v : VatId) (f : Vat → Vat) : (s.modVat v f).vat v = f (s.vat v) := by simp [State.modVat]
theorem State.vat_modVat_ne {v u : VatId} (f : Vat → Vat) (h : u ≠ v) : (s.modVat v f).vat u = s.vat u :=
  State.vat_setVat_ne s _ h
@[simp] theorem State.qp_modQp_self (n : QueueId) (f : QPair → QPair) : (s.modQp n f).qp n = f (s.qp n) := by simp [State.qp]
theorem State.qp_modQp_ne {n m : QueueId} (f : QPair → QPair) (h : m ≠ n) : (s.modQp n f).qp m = s.qp m := by
  simp [State.qp, kget_kset_ne _ _ _ h]
@[simp] theorem State.link_modLink_self (l : LinkId) (f : Link → Link) : (s.modLink l f).link l = f (s.link l) := by simp [State.link]
theorem State.link_modLink_ne {l m : LinkId} (f : Link → Link) (h : m ≠ l) : (s.modLink l f).link m = s.link m := by
  simp [State.link, kget_kset_ne _ _ _ h]
@[simp] theorem State.router_modRouter_self (r : RouterId) (f : Router → Router) : (s.modRouter r f).router r = f (s.router r) := by
  simp [State.router]
theorem State.router_modRouter_ne {r q : RouterId} (f : Router → Router) (h : q ≠ r) : (s.modRouter r f).router q = s.router q := by
  simp [State.router, kget_kset_ne _ _ _ h]

/-! ## Cores and threads -/

/-- The vat of a core is read from the registers alone. -/
theorem State.vatOf_congr {s u : State} (h : s.regs = u.regs) (c : CoreId) : s.vatOf c = u.vatOf c := by
  simp only [State.vatOf, State.ownerOf, State.vreg, State.getReg, h]

/-- A core is read from the tables of cores, of registers and of vats alone. -/
theorem State.core_congr {s u : State} (hc : s.cores = u.cores) (hr : s.regs = u.regs) (hv : s.vats = u.vats) (c : CoreId) :
    s.core c = u.core c := by
  simp only [State.core, State.vatOf_congr hr, State.vat, hc, hv]

@[simp] theorem State.core_setCore_self (c : CoreId) (k : Core) : (s.setCore c k).core c = k := by simp [State.core]

theorem State.core_setCore_ne {c d : CoreId} (k : Core) (h : d ≠ c) : (s.setCore c k).core d = s.core d := by
  simp only [State.core, State.setCore_cores, kfind_kset_ne _ _ h, State.vatOf_congr (State.setCore_regs s c k), State.vat,
    State.setCore_vats]

@[simp] theorem State.core_modCore_self (c : CoreId) (f : Core → Core) : (s.modCore c f).core c = f (s.core c) := by simp [State.modCore]

theorem State.core_modCore_ne {c d : CoreId} (f : Core → Core) (h : d ≠ c) : (s.modCore c f).core d = s.core d :=
  State.core_setCore_ne s _ h

@[simp] theorem State.vatOf_modCore (c d : CoreId) (f : Core → Core) : (s.modCore c f).vatOf d = s.vatOf d := rfl
@[simp] theorem State.getReg_modCore (c : CoreId) (f : Core → Core) (r : Reg) : (s.modCore c f).getReg r = s.getReg r := rfl
@[simp] theorem State.now_modCore (c : CoreId) (f : Core → Core) : (s.modCore c f).now = s.now := rfl

@[simp] theorem Core.thread_modThread_self (k : Core) (t : Fin 16) (f : Thread → Thread) : (k.modThread t f).thread t = f (k.thread t) := by
  simp [Core.thread, Core.modThread]
theorem Core.thread_modThread_ne (k : Core) {t x : Fin 16} (f : Thread → Thread) (h : x ≠ t) :
    (k.modThread t f).thread x = k.thread x := by
  simp [Core.thread, Core.modThread, kget_kset_ne _ _ _ h]
@[simp] theorem Core.modThread_mem (k : Core) (t : Fin 16) (f : Thread → Thread) : (k.modThread t f).mem = k.mem := rfl

@[simp] theorem State.thread_modThread_self (t : Site) (f : Thread → Thread) : (s.modThread t f).thread t = f (s.thread t) := by
  simp [State.thread, State.modThread]

theorem State.thread_modThread_ne {t x : Site} (f : Thread → Thread) (h : x ≠ t) : (s.modThread t f).thread x = s.thread x := by
  obtain ⟨c, i⟩ := t
  obtain ⟨d, j⟩ := x
  by_cases hd : d = c
  · subst hd
    have hj : j ≠ i := fun e => h (by rw [e])
    simp [State.thread, State.modThread, Core.thread_modThread_ne _ _ hj]
  · simp [State.thread, State.modThread, State.core_modCore_ne s _ hd]

@[simp] theorem State.core_modThread_mem (t : Site) (f : Thread → Thread) (c : CoreId) : ((s.modThread t f).core c).mem = (s.core c).mem := by
  by_cases h : c = t.core
  · subst h; simp [State.modThread]
  · simp [State.modThread, State.core_modCore_ne s _ h]

@[simp] theorem Thread.sreg_setS_self (h : Thread) (r : BitVec 5) (w : Word64) : (h.setS r w).sreg r = w := by simp [Thread.sreg, Thread.setS]
theorem Thread.sreg_setS_ne (h : Thread) {r x : BitVec 5} (w : Word64) (hx : x ≠ r) : (h.setS r w).sreg x = h.sreg x := by
  simp [Thread.sreg, Thread.setS, kget_kset_ne _ _ _ hx]
@[simp] theorem Thread.vreg_setS (h : Thread) (r : BitVec 5) (w : Word64) (x : BitVec 3) : (h.setS r w).vreg x = h.vreg x := rfl
@[simp] theorem Thread.vreg_setV_self (h : Thread) (r : BitVec 3) (w : List Word32) : (h.setV r w).vreg r = w := by simp [Thread.vreg, Thread.setV]
theorem Thread.vreg_setV_ne (h : Thread) {r x : BitVec 3} (w : List Word32) (hx : x ≠ r) : (h.setV r w).vreg x = h.vreg x := by
  simp [Thread.vreg, Thread.setV, kget_kset_ne _ _ _ hx]
@[simp] theorem Thread.sreg_setV (h : Thread) (r : BitVec 3) (w : List Word32) (x : BitVec 5) : (h.setV r w).sreg x = h.sreg x := rfl

/-! ## Issue -/

/-- A thread that may not issue stays as it is. -/
theorem issue_held (t : Site) (hold seq : Bool) (cs : List (Bool × Status)) (e : State → State)
    (h : (!s.canIssue t || hold) = true) : issue s t hold seq cs e = .next s := by rw [issue, if_pos h]

/-- An instruction that issues and fails a check faults and does nothing else. -/
theorem issue_fault (t : Site) (hold seq : Bool) (cs : List (Bool × Status)) (e : State → State) (st : Status)
    (h : (!s.canIssue t || hold) = false) (hf : firstFault (cs ++ [(seq && decide ((s.thread t).pc = 2047), .address)]) = some st) :
    issue s t hold seq cs e = .next (s.threadFault t st) := by
  rw [issue, if_neg (by simp [h]), hf]

/-- An instruction that issues and passes its checks has its effect, with the program counter at the next index when it goes on in sequence. -/
theorem issue_ok (t : Site) (hold seq : Bool) (cs : List (Bool × Status)) (e : State → State)
    (h : (!s.canIssue t || hold) = false) (hf : firstFault (cs ++ [(seq && decide ((s.thread t).pc = 2047), .address)]) = none) :
    issue s t hold seq cs e = .next (e (if seq then s.setPc t ((s.thread t).pc + 1) else s)) := by
  rw [issue, if_neg (by simp [h]), hf]

/-- What an issue can answer: always a next state, one of three. -/
theorem issue_cases (t : Site) (hold seq : Bool) (cs : List (Bool × Status)) (e : State → State) :
    issue s t hold seq cs e = .next s ∨ (∃ st, issue s t hold seq cs e = .next (s.threadFault t st)) ∨
      issue s t hold seq cs e = .next (e (if seq then s.setPc t ((s.thread t).pc + 1) else s)) := by
  by_cases h : (!s.canIssue t || hold) = true
  · exact .inl (issue_held s t hold seq cs e h)
  · cases hf : firstFault (cs ++ [(seq && decide ((s.thread t).pc = 2047), .address)]) with
    | none => exact .inr (.inr (issue_ok s t hold seq cs e (by simpa using h) hf))
    | some st => exact .inr (.inl ⟨st, issue_fault s t hold seq cs e st (by simpa using h) hf⟩)

end Sys2Proof.Machine
end

