-- ==== Sys2Proof/Laws/Ports.lean ====
section
/-! SUPPORT. What the operations over streams, grid links, shared ports, link packets and mirrored records can do: what each one reads back, and all
that it leaves alone. -/

namespace Sys2Proof.Machine

variable (s : State)

/-! ## Streams and pails -/

@[simp] theorem State.stream_setStream_self (v : VatId) (st : StreamId) (x : Stream) : (s.setStream v st x).stream v st = some x := by
  simp [State.stream, State.setStream]
theorem State.stream_setStream_ne {v : VatId} {st i : StreamId} (x : Stream) (h : i ≠ st) : (s.setStream v st x).stream v i = s.stream v i := by
  simp [State.stream, State.setStream, kfind_kset_ne _ _ h]
@[simp] theorem State.pail_setPail_self (v : VatId) (p : Nat) (x : Pail) : (s.setPail v p x).pail v p = x := by
  simp [State.pail, State.setPail]
/-- A stream's or a pail's update reaches its vat alone. -/
theorem State.setStream_frame (v : VatId) (st : StreamId) (x : Stream) : { s.setStream v st x with vats := s.vats } = s := rfl
theorem State.setPail_frame (v : VatId) (p : Nat) (x : Pail) : { s.setPail v p x with vats := s.vats } = s := rfl

/-! ## Links of the grid (R12, R143) -/

/-- The neighbour in a direction: one row north or south of it in the same column, or one column east or west in the same row. -/
theorem neighbour_spec {r q : RouterId} {d : Fin 4} :
    neighbour r d = some q ↔
      (d = 0 ∧ q.px = r.px ∧ q.py.val + 1 = r.py.val) ∨ (d = 1 ∧ q.px.val = r.px.val + 1 ∧ q.py = r.py) ∨
      (d = 2 ∧ q.px = r.px ∧ q.py.val = r.py.val + 1) ∨ (d = 3 ∧ q.px.val + 1 = r.px.val ∧ q.py = r.py) := by
  obtain ⟨⟨x, hx⟩, y, hy⟩ := r
  obtain ⟨⟨a, ha⟩, b, hb⟩ := q
  have hd : d = 0 ∨ d = 1 ∨ d = 2 ∨ d = 3 := by omega
  obtain rfl | rfl | rfl | rfl := hd <;> simp [neighbour, toFin?, Fin.ext_iff]
  · simp [hx, show y - 1 < 384 by omega]; omega
  · by_cases h : x + 1 < 512 <;> simp [h, hy] <;> omega
  · by_cases h : y + 1 < 384 <;> simp [h, hx] <;> omega
  · simp [hy, show x - 1 < 512 by omega]; omega
/-- A link is the same from both of its ends. -/
theorem neighbour_back {r q : RouterId} {d : Fin 4} (h : neighbour r d = some q) : neighbour q (d + 2) = some r := by
  rw [neighbour_spec] at h ⊢
  obtain ⟨rfl, h, k⟩ | ⟨rfl, h, k⟩ | ⟨rfl, h, k⟩ | ⟨rfl, h, k⟩ := h
  · exact .inr (.inr (.inl ⟨rfl, h.symm, k.symm⟩))
  · exact .inr (.inr (.inr ⟨rfl, h.symm, k.symm⟩))
  · exact .inl ⟨rfl, h.symm, k.symm⟩
  · exact .inr (.inl ⟨rfl, h.symm, k.symm⟩)

/-! ## Shared ports (R160) -/

/-- An offer puts its parcel behind its participant's others. -/
@[simp] theorem State.offer_waiting_self (p : SharedPort) (d : Bool) (who : Fin 65) (x : Parcel) :
    kget [] ((s.offer p d who x).sched p d).waiting who = kget [] (s.sched p d).waiting who ++ [x] := by simp [State.offer, State.sched]
theorem State.offer_waiting_ne (p : SharedPort) (d : Bool) {who other : Fin 65} (x : Parcel) (h : other ≠ who) :
    kget [] ((s.offer p d who x).sched p d).waiting other = kget [] (s.sched p d).waiting other := by
  simp [State.offer, State.sched, kget_kset_ne _ _ _ h]
@[simp] theorem State.offer_deficit (p : SharedPort) (d : Bool) (who : Fin 65) (x : Parcel) :
    ((s.offer p d who x).sched p d).deficit = (s.sched p d).deficit := by simp [State.offer, State.sched]
theorem State.sched_offer_ne {p q : SharedPort} {d e : Bool} (who : Fin 65) (x : Parcel) (h : (q, e) ≠ (p, d)) :
    (s.offer p d who x).sched q e = s.sched q e := by simp [State.offer, State.sched, kget_kset_ne _ _ _ h]
/-- It changes the schedulers alone. -/
theorem State.offer_frame (p : SharedPort) (d : Bool) (who : Fin 65) (x : Parcel) : { s.offer p d who x with scheds := s.scheds } = s := rfl
/-- A message with ports still to pass waits at the next one, and changes the schedulers alone. -/
theorem State.tripOn_waits (t : Trip) {h : SharedPort × Bool} {hs : List (SharedPort × Bool)} (e : t.hops = h :: hs) :
    s.tripOn t = s.offer h.1 h.2 (seatOf t.vat) (.trip { t with hops := hs }) := by simp [State.tripOn, e]
/-- One with none has arrived. -/
theorem State.tripOn_ends (t : Trip) (e : t.hops = []) : s.tripOn t = s.tripDone t := by simp [State.tripOn, e]

/-! ## Links (R287) -/

/-- A link's update changes the links alone. -/
theorem State.modLink_frame (l : LinkId) (f : Link → Link) : { s.modLink l f with links := s.links } = s := rfl

/-! ## Mirrored records (R301) -/

@[simp] theorem State.mrec_setRec_self (v : VatId) (st : StreamId) (x : MirrorRec) : (s.setRec v st x).mrec v st = some x := by
  simp [State.mrec, State.setRec]
theorem State.mrec_setRec_ne {v w : VatId} {st i : StreamId} (x : MirrorRec) (h : (w, i) ≠ (v, st)) :
    (s.setRec v st x).mrec w i = s.mrec w i := by simp [State.mrec, State.setRec, kfind_kset_ne _ _ h]
theorem State.setRec_frame (v : VatId) (st : StreamId) (x : MirrorRec) : { s.setRec v st x with twin := s.twin } = s := rfl

end Sys2Proof.Machine
end

