-- ==== Sys2Proof/Tests/Slice0.lean ====
section
/-! SUPPORT. Tests: the checks of WellFormed refuse an ill-formed term each; words written out from the encodings of R191 and R192
decode to their instructions; witness_<statement> shows a state and operands that meet the hypotheses of that statement, clause by
clause; test_<what> compares one field of one step with a value worked out by hand from the rule. -/

open Sys2Proof Sys2Proof.Machine

namespace Sys2Proof.Tests

/-! ## Small states -/

/-- The logical core ⟨0, 0⟩, of region 0, and its thread 0. -/
def c0 : CoreId := ⟨0, 0⟩
def t0 : Site := ⟨c0, 0⟩
/-- The router of that core. -/
def r0 : RouterId := ⟨0, 0⟩
/-- A module in service: vat 0 is RUNNING in region 0, which is on; further registers may be given. -/
def serving (rs : KMap Reg Word64) : State :=
  { regs := rs ++ [(.pwrState, 0x25), (.vat 0 (.vatRegions 0), 1), (.vat 0 .vatStatus, 2), (.pwrRegion 0, 0x4000)],
    runNorth := true, runSouth := true, host := { eastDown := false, westDown := false } }
/-- Such a module with a core and registers. -/
def withCore (k : Core) (rs : KMap Reg Word64) : State := { serving rs with cores := [(c0, k)] }
/-- A core whose thread 0 is ready, with these scalar and vector registers and this memory. -/
def busy (regs : KMap (BitVec 5) Word64) (mem : Mem) (vregs : KMap (BitVec 3) (List Word32) := []) : Core :=
  { threads := [(0, { status := .ready, regs := regs, vregs := vregs })], mem := mem }
/-- A module with that core. -/
def running (regs : KMap (BitVec 5) Word64) (mem : Mem := []) (vregs : KMap (BitVec 3) (List Word32) := []) : State :=
  withCore (busy regs mem vregs) []
/-- A thread whose program counter stands at the last index. -/
def atEnd : State := withCore { threads := [(0, { status := .ready, pc := 2047 })] } []
/-- A stopped vat: vat 0 in a given state. -/
def vatIn (n : Word64) (rs : KMap Reg Word64) : State := serving ((.vat 0 .vatStatus, n) :: rs)

/-- What a command that goes on leaves, looked at through f. -/
def after (r : Result) {α : Type} (f : State → α) : Option α :=
  match r with
  | .next u => some (f u)
  | _ => none
/-- The vector of 64 equal lanes. -/
def same (w : Word32) : List Word32 := List.replicate 64 w

/-! ## Well-formed commands -/

theorem smoke_illegalOpcode : (Instr.illegalOpcode t0 0x01).wf = false ∧ (Instr.illegalOpcode t0 0x11).wf = true := by decide
theorem smoke_kvRegisterWrite : (Instr.kvRegisterWrite 0 .vatCtrl 0).wf = false ∧ (Instr.kvRegisterWrite 0 .kvConf 0).wf = true := by decide
theorem smoke_counterRegisterWrite :
    (Instr.counterRegisterWrite 0 .kvConf 0).wf = false ∧ (Instr.counterRegisterWrite 0 (.syncMap 0) 0).wf = true := by decide
theorem smoke_entryFetch :
    (Instr.entryFetch 0 (List.replicate 63 0)).wf = false ∧ (Instr.entryFetch 0 (List.replicate 64 0)).wf = true := by decide
theorem smoke_fwImage :
    (Instr.fwImage (List.replicate 256 0) true).wf = false ∧ (Instr.fwImage (List.replicate 255 0) true).wf = true := by decide +kernel
theorem smoke_cellReceive :
    (Instr.cellReceive 0 (List.replicate 35 0)).wf = false ∧ (Instr.cellReceive 0 (List.replicate 36 0)).wf = true := by decide
theorem smoke_thermalWindow :
    (Instr.thermalWindow 0 0 [{ region := 0, sensors := [80, 80, 80], offNeighbours := [false, false, false] }]).wf = false := by decide
theorem smoke_commitReport :
    (Instr.commitReport 0 0 [] 0).wf = false ∧ (Instr.commitReport 0 0 [1, 2, 3, 4, 5] 0).wf = false ∧
    (Instr.commitReport 0 0 [1] 0).wf = true := by decide
theorem smoke_memEccfatal : (Instr.memEccfatal c0 0x310000).wf = false ∧ (Instr.memEccfatal c0 0x30FFFF).wf = true := by decide
theorem smoke_test : (Instr.test true [{ core := r0, testedBy := 5 }]).wf = false ∧
    (Instr.test true [{ core := r0, testedBy := 2, failedBy := 3 }]).wf = false ∧
    (Instr.test true [{ core := r0, workingNeighbours := 5 }]).wf = false := by decide

/-! ## Instruction words (R191, R192): one written out for each format -/

/-- ADD s3, s1, 5: opcode 01, D 3 at 12:8, A 1 at 17:13, I at 23, IMM 5 at 63:32. -/
theorem word_add : decodeYiltil t0 0 0x0000000500802301 = .add t0 { d := 3, a := 1, i := 1, imm := 5 } := by decide
/-- BR LT s1, s2, −2: opcode 20, A 1 at 12:8, B 2 at 17:13, COND 3 at 20:18, TARGET at 63:32. -/
theorem word_br : decodeYiltil t0 0 0xFFFFFFFE000C4120 = .br t0 { a := 1, b := 2, cond := 3, target := 0xFFFFFFFE } := by decide
/-- LD s4 from s2 + 16, 4 bytes, sign-extended: D 4 at 12:8, BASE 2 at 17:13, WIDTH 2 at 19:18, SIGN at 22, OFFSET at 47:24. -/
theorem word_ld : decodeYiltil t0 0 0x0000000010484430 = .ld t0 { d := 4, base := 2, width := 2, sign := 1, offset := 16 } := by decide
/-- VFMA v1 = v2 × v3 + v4 in FP32: VD at 10:8, VA at 13:11, VB at 16:14, VC at 19:17, FMT D at 23:20. -/
theorem word_vfma : decodeYiltil t0 0 0x0000000000D8D143 = .vfma t0 { vd := 1, va := 2, vb := 3, vc := 4, fmt := 0xD } := by decide
/-- VEXT s7 = v2[63]: VA at 13:11, FMT D at 23:20, S 7 at 28:24, FUNC 63 at 47:32. -/
theorem word_vext : decodeYiltil t0 0 0x0000003F07D0104A = .vext t0 { va := 2, fmt := 0xD, s := 7, func := 63 } := by decide
/-- MAC from line 2, 4 lines, INT8 by INT8, tile B, token rows 0 to 3, features from 5: LINE at 19:8, COUNT 3 at 31:20, WFMT at 35:32,
AFMT at 39:36, TOK at 43:42, TILE at 44, FEAT at 54:45. -/
theorem word_mac : decodeYiltil t0 0 0x0000BCAA00300260 =
    .mac t0 { line := 2, count := 3, wfmt := 0xA, afmt := 0xA, tok := 3, tile := 1, feat := 5 } := by decide
/-- SEND to s1 from s2 of s3 bytes on VC1: DST at 12:8, SRC at 17:13, LEN at 22:18, VC at 26. -/
theorem word_send : decodeYiltil t0 0 0x00000000040C4180 = .send t0 { dst := 1, src := 2, len := 3, vc := 1 } := by decide
/-- SADD 7 to id 0x123: VID at 19:8, VALUE at 47:32. -/
theorem word_sadd : decodeYiltil t0 0 0x0000000700012390 = .sadd t0 { vid := 0x123, value := 7 } := by decide
/-- WALK from s5, POSLD from s6, TSTART of thread 2 at 100 with s1. -/
theorem word_walk : decodeYiltil t0 0 0x000000000000A0A0 = .walk t0 { src := 5 } := by decide
theorem word_posld : decodeYiltil t0 0 0x00000000000CC0A1 = .posld t0 { base := 6, width := 3 } := by decide
theorem word_tstart : decodeYiltil t0 0 0x00000064004020B1 = .tstart t0 { b := 1, thread := 2, target := 100 } := by decide
theorem word_illegal : decodeYiltil t0 0 0x22 = .illegalOpcode t0 0x22 := by decide
theorem witness_InstructionWordRoundTrip :
    (Instr.add t0 { d := 3 }).wf = true ∧ (encodeYiltil (.add t0 { d := 3 })).isSome = true ∧ siteOf (.add t0 { d := 3 }) = some (t0, 0) ∧
    inOpcodeMap ((0xFF : Word64).toNat % 256) = false := by decide

/-! ## The machine, scalar instructions and branches -/

theorem witness_StepRunsFrontCommand :
    ({ pending := [.ident] } : State).pending = .ident :: [] ∧ State.reset.pending = [] := by decide
/-- ADD with an immediate and with two registers; a shift, whose FUNC is 0 too. -/
theorem witness_ScalarResult : (running []).ready t0 ∧ ({ i := 1, imm := 7 } : FmtA).func = 0 ∧ ({ i := 1, imm := 7 } : FmtA).b = 0 ∧
    ({ b := 31, d := 31 } : FmtA).imm = 0 := by unfold State.ready; decide
/-- Every condition code from 0 to 6; LI; RDSTAMP at D = 30; BR taken inside the store at both its ends, out of it on both sides, not
taken; JR inside at 2,047 and out of it at 2,048. -/
theorem witness_CompareConstantsBranch :
    let s := running [(1, 2047), (2, 2048)]
    s.ready t0 ∧ s.canIssue t0 = true ∧ (∀ n : Fin 7, (BitVec.ofNat 8 n.val).toNat ≤ 6) ∧ (30 : BitVec 5) ≠ 31 ∧
    (s.thread t0).pc + (2047 : BitVec 32).toInt = 2047 ∧ (s.thread t0).pc + (2048 : BitVec 32).toInt = 2048 ∧
    (s.thread t0).pc + (0xFFFFFFFF : BitVec 32).toInt = -1 ∧ ((s.thread t0).sreg 1).toNat < 2048 ∧ 2048 ≤ ((s.thread t0).sreg 2).toNat ∧
    (s.thread t0).sreg 1 ≠ (s.thread t0).sreg 2 := by unfold State.ready; decide
theorem witness_ScalarFrame : after (exec (.add t0 {}) (running [])) (fun _ => true) = some true ∧
    after (exec (.br t0 {}) (running [])) (fun _ => true) = some true := by decide
/-- A use fault each, FUNC at 7 for CMP, D at 31 for RDSTAMP, and the last index. -/
theorem witness_IssueFaultOrder : (running []).canIssue t0 = true ∧ atEnd.canIssue t0 = true ∧ (atEnd.thread t0).pc = 2047 ∧
    ({ i := 1, b := 1 } : FmtA).b ≠ 0 ∧ ({ imm := 1 } : FmtA).imm ≠ 0 ∧ ({ func := 7 } : FmtA).func.toNat = 7 ∧ ({ d := 31 } : FmtA).d = 31 ∧
    [Status.illegal, .format, .counter, .empty, .oversize, .address, .protect].find?
      (fun x => decide ((true, x) ∈ [(true, Status.protect), (true, Status.format), (false, Status.illegal)])) = some .format := by decide

/-- 2^63 − 1 plus 1 wraps; the destination is a source. -/
theorem test_add_wraps : after (exec (.add t0 { d := 1, a := 1, i := 1, imm := 1 }) (running [(1, 0x7FFFFFFFFFFFFFFF)]))
    (fun u => ((u.thread t0).sreg 1, (u.thread t0).pc)) = some (0x8000000000000000, 1) := by decide
/-- (−1) unsigned squared: the high word is 2^64 − 2. -/
theorem test_mulhu : after (exec (.mulhu t0 { d := 2, a := 1, b := 1 }) (running [(1, 0xFFFFFFFFFFFFFFFF)]))
    (fun u => (u.thread t0).sreg 2) = some 0xFFFFFFFFFFFFFFFE := by decide
/-- A shift by 65 shifts by 1 (R204). -/
theorem test_sra : after (exec (.sra t0 { d := 2, a := 1, i := 1, imm := 65 }) (running [(1, 0x8000000000000000)]))
    (fun u => (u.thread t0).sreg 2) = some 0xC000000000000000 := by decide
theorem test_min_signed : after (exec (.min t0 { d := 2, a := 1, i := 1, imm := 0 }) (running [(1, 0xFFFFFFFFFFFFFFFF)]))
    (fun u => (u.thread t0).sreg 2) = some 0xFFFFFFFFFFFFFFFF := by decide
theorem test_cmp_ltu : after (exec (.cmp t0 { d := 2, a := 1, i := 1, imm := 0, func := 5 }) (running [(1, 0xFFFFFFFFFFFFFFFF)]))
    (fun u => (u.thread t0).sreg 2) = some 0 := by decide
theorem test_lih : after (exec (.lih t0 { d := 2, imm := 0x12345678 }) (running [(2, 0xFFFFFFFF9ABCDEF0)]))
    (fun u => (u.thread t0).sreg 2) = some 0x123456789ABCDEF0 := by decide
/-- A branch goes to PC + TARGET; one that would leave the store faults with ADDRESS and its core stops. -/
theorem test_br_taken : after (exec (.br t0 { target := 9 }) (running [])) (fun u => (u.thread t0).pc) = some 9 := by decide
theorem test_br_out : after (exec (.br t0 { target := 0xFFFFFFFF }) (running []))
    (fun u => (u.reports.map FaultReport.status, (u.core c0).halted)) = some ([.address], true) := by decide

/-! ## Loads and stores -/

/-- An aligned word in scratchpad at its first byte and its last with one group powered; addresses at 2^22 and unaligned; POSLD in and
out of the scratchpad. -/
theorem witness_LoadResult :
    let s := running [(1, 0x200000), (2, 0x400000), (3, 0x20BFF8)]
    let k := s.core c0
    s.ready t0 ∧ memHold k 0 false 0x200000 256 = false ∧ badLoad k false 0x200000 4 = false ∧ badLoad k true 0x200000 256 = false ∧
    badLoad k false 0x20BFF8 8 = false ∧ badLoad k false 0x400000 4 = true ∧ k.doubleAt 0x200000 256 = false ∧ k.inSpm 0x200000 8 = true ∧
    k.inSpm 0x400000 8 = false ∧ k.heldByMove 0 false 0x200000 8 = false ∧
    ((s.thread t0).sreg 2 + (({ base := 2, width := 2 } : FmtM).offset).signExtend 64).toNat = 2 ^ 22 ∧ 0x200001 % 2 ≠ 0 := by
  unfold State.ready; decide
theorem witness_LoadSpaces : 8 ∈ [1, 2, 4, 8] ∧ ({} : Core).groups ∈ [1, 2, 4, 8] ∧ 0x17FFF8 % 8 = 0 := by decide
/-- Stores to the first bytes of scratchpad, to a collapsed window, to the gate word and to the layer tag; a vector store. -/
theorem witness_StoreResult :
    let s := running [(1, 0x200000), (2, 0x310000), (3, 0x3F0010), (4, 0x3F0018)]
    let k := s.core c0
    s.ready t0 ∧ s.memOk = true ∧ memHold k 0 true 0x200000 256 = false ∧ memHold k 0 true 0x310000 4 = false ∧
    memHold k 0 true 0x3F0010 8 = false ∧ memHold k 0 true 0x3F0018 8 = false ∧ k.doubleAt 0x200000 256 = false ∧ k.inSpm 0x200000 256 = true ∧
    k.spaceOf 0x310000 4 = some (.window false) ∧ k.doubleAt 0x310000 4 = false := by unfold State.ready; decide
theorem witness_LoadStoreFrame : (running [(1, 0x200000)]).memOk = true ∧
    after (exec (.ld t0 { d := 2, base := 1, width := 2 }) (running [(1, 0x200000)])) (fun _ => true) = some true ∧
    after (exec (.vld t0 { d := 2, base := 1, width := 2 }) (running [(1, 0x200000)])) (fun _ => true) = some true ∧
    after (exec (.posld t0 { base := 1, width := 3 }) (running [(1, 0x200000)])) (fun _ => true) = some true ∧
    after (exec (.st t0 { d := 2, base := 1, width := 2 }) (running [(1, 0x200000)])) (fun _ => true) = some true ∧
    after (exec (.vst t0 { d := 2, base := 1, width := 2 }) (running [(1, 0x200000)])) (fun _ => true) = some true := by decide +kernel

/-- Two bytes, least significant first, sign-extended. -/
theorem test_ld_sign : after (exec (.ld t0 { d := 2, base := 1, width := 1, sign := 1 })
    (running [(1, 0x200000)] [(0x200000, 0x34), (0x200001, 0x82)])) (fun u => (u.thread t0).sreg 2) = some 0xFFFFFFFFFFFF8234 := by decide
theorem test_ld_unaligned : after (exec (.ld t0 { d := 2, base := 1, width := 2 }) (running [(1, 0x200002)]))
    (fun u => u.reports.map FaultReport.status) = some [.address] := by decide
/-- 1.0 stored in sequence over +0.0: memory lists the bytes that are not 0. -/
theorem test_st : after (exec (.st t0 { d := 2, base := 1, width := 2 }) (running [(1, 0x200000), (2, 0x3F800000)]))
    (fun u => (u.core c0).mem) = some [(0x200002, 0x80), (0x200003, 0x3F)] := by decide
/-- An accumulate in FP32: 1.0 + 2.0 = 3.0. -/
theorem test_st_accumulate : after (exec (.st t0 { d := 2, base := 1, width := 2, acc := 1 })
    (running [(1, 0x200000), (2, 0x40000000)] [(0x200002, 0x80), (0x200003, 0x3F)])) (fun u => (u.core c0).word 0x200000) =
    some 0x40400000 := by decide +kernel
theorem test_posld : after (exec (.posld t0 { base := 1, width := 3 })
    (running [(1, 0x200000)] [(0x200002, 0x34), (0x200003, 0x12)])) (fun u => (kget 0 (u.core c0).posRegs 0, kget 0 (u.core c0).posRegs 1)) =
    some (0, 0x1234) := by decide

/-! ## Vector instructions -/

/-- The use of VB and of the broadcast, in each format. -/
theorem witness_VectorLaneResult : (running []).ready t0 ∧ ({ sb := 1, s := 31 } : FmtV).vb = 0 ∧ ({ vb := 7 } : FmtV).s = 0 ∧
    ({ fmt := 0xC } : FmtV).fmt ≠ 0xD ∧ ({ fmt := 0xC } : FmtV).fmt ≠ 0xE := by unfold State.ready; decide
theorem witness_VectorConvertResult : (running []).ready t0 ∧ ({ func := 4 } : FmtV).func.toNat ≤ 4 ∧ 4 < ({ func := 5 } : FmtV).func.toNat ∧
    ({ func := 63 } : FmtV).func.toNat < 64 ∧ ((8, 0xA) : Nat × BitVec 4) ∈ [(16, 0xB), (16, 0xC), (8, 0x7), (8, 0x8), (8, 0xA), (32, 0xE)] ∧
    ({ func := 13 } : FmtV).func.toNat = 1 + 4 * 3 ∧ 64 * 3 < 2048 / 8 ∧
    ({ fmt := 0x3 } : FmtV).fmt ∉ [0x7, 0x8, 0xA, 0xB, 0xC, 0xE] := by unfold State.ready; decide
/-- VPACK in its last place, VCOMB on even registers, VDRAW at S = 30 and 31; a vector of NaN. -/
theorem witness_VectorLongResult :
    let s := running [] [] [(2, same 0x7FC00000)]
    s.ready t0 ∧ ({ func := 31, vc := 1, fmt := 4 } : FmtV).func.toNat < 32 ∧ ({ func := 31, vc := 1 } : FmtV).vc ≠ 0 ∧
    ({ vd := 6, va := 4, vb := 2 } : FmtV).vd.toNat % 2 = 0 ∧ ({ s := 30 } : FmtV).s ≠ 31 ∧
    (∀ i : Fin 64, (dec32 (lane ((s.thread t0).vreg 2) i)).isNan = true) := by unfold State.ready; decide +kernel
theorem witness_TopkSorts : (running []).ready t0 ∧ (running []).canIssue t0 = true ∧
    ({ vd := 0, va := 4, vb := 6, vc := 2, fmt := 0xD } : FmtV).vd ≠ 2 ∧ ({ vd := 1 } : FmtV).vd.toNat % 2 = 1 := by unfold State.ready; decide
/-- Infinity, the least subnormal number, and NaN, and the greatest FP8 E4M3 and E5M2 values. -/
theorem witness_FloatFormats : (dec32 0x7F800000).isNan = false ∧ (dec32 1).isNan = false ∧ (dec32 0x7F800001).isNan = true ∧
    (fpDecode fmtBf16 0xFF80).isNan = false ∧ (fpDecode fmtFp16 0x7BFF).isNan = false ∧ (fpDecode fmtE4m3 0x7E).isNan = false ∧
    (fpDecode fmtE5m2 0x7B).isNan = false := by decide
theorem witness_VectorFrame : after (exec (.vadd t0 { fmt := 0xE }) (running [])) (fun _ => true) = some true ∧
    after (exec (.vcomb t0 { fmt := 0xD }) (running [])) (fun _ => true) = some true := by decide +kernel

/-- 1.5 + 2.25 = 3.75. -/
theorem test_vadd : after (exec (.vadd t0 { vd := 3, va := 1, vb := 2, fmt := 0xD })
    (running [] [] [(1, same 0x3FC00000), (2, same 0x40100000)])) (fun u => (u.thread t0).vreg 3) = some (same 0x40700000) := by decide +kernel
/-- The fused form rounds once: (1 + 2^-12)² − 1 keeps its last bit, 2^-11 + 2^-24. -/
theorem test_vfma : after (exec (.vfma t0 { vd := 3, va := 1, vb := 1, vc := 2, fmt := 0xD })
    (running [] [] [(1, same 0x3F800800), (2, same 0xBF800000)])) (fun u => lane ((u.thread t0).vreg 3) 0) = some 0x3A000400 := by decide +kernel
/-- 64 lanes of 2^31 − 1 sum to −64 modulo 2^32. -/
theorem test_vsum_int : after (exec (.vsum t0 { va := 1, fmt := 0xE, s := 4 }) (running [] [] [(1, same 0x7FFFFFFF)]))
    (fun u => (u.thread t0).sreg 4) = some 0xFFFFFFFFFFFFFFC0 := by decide +kernel
theorem test_vcvt_bf16 : after (exec (.vcvt t0 { vd := 3, va := 1, fmt := 0xB }) (running [] [] [(1, same 0x3FC00000)]))
    (fun u => (lane ((u.thread t0).vreg 3) 0, lane ((u.thread t0).vreg 3) 63)) = some (0x3FC03FC0, 0) := by decide +kernel
theorem test_vext_top : after (exec (.vext t0 { va := 1, fmt := 0xE, s := 4, func := 63 }) (running [] [] [(1, same 0x80000000)]))
    (fun u => (u.thread t0).sreg 4) = some 0xFFFFFFFF80000000 := by decide +kernel

/-! ## Tile instructions -/

/-- One whole feature in the last four lines, features and tile at their ends. -/
theorem witness_MacInt8DotProduct :
    let s := running []
    let f : FmtT := { line := 3068, count := 3, wfmt := 0xA, afmt := 0xA, feat := 1023, tok := 3, tile := 1, buf := 1 }
    s.ready t0 ∧ s.memOk = true ∧ f.line.toNat + (f.count.toNat + 1) ≤ 3072 ∧ 1 ≤ (f.count.toNat + 1) / 4 ∧ f.feat.toNat + 1 ≤ 1024 ∧
    (s.thread t0).solder = none ∧ (s.core c0).macRun = none ∧ (s.core c0).macWait = none ∧ (s.core c0).tileRead true = false ∧
    (s.core c0).movesInto 0 [true] (some true) = false ∧ (s.core c0).doubleAt (512 * 3068) 2048 = false := by unfold State.ready; decide
/-- MAC and MACA with the array idle and with one running; a swept job; TCLR; SOLDER with four places. -/
theorem witness_TileQueueAndClear :
    let m : FmtT := { count := 3, wfmt := 0xA, afmt := 0xA }
    let s := running [(1, 0x200000)] [(0x200000, 0xFF), (0x200001, 0xFF), (0x200002, 0xFF), (0x200003, 0xFF), (0x200006, 0x20),
      (0x20000A, 0x20), (0x20000E, 0x20)]
    let j : MacJob := { thread := 0, f := m, swept := true }
    let b := withCore { busy [] [] with macRun := some j } []
    let q := withCore (busy [(1, 0x200000)] []) [(.vat 0 .kvConf, 0x80A000)]
    let a : FmtT := { line := 1, wfmt := 0xA, afmt := 3 }
    let ja : MacJob := { thread := 0, f := a, attention := true, walk := 0x200000, head := memBytes (q.core c0).mem 0x200000 32 }
    s.ready t0 ∧ firstFault (macChecks s t0 m) = none ∧ (s.core c0).macRun = none ∧ (s.core c0).macWait = none ∧
    (s.core c0).tileRead false = false ∧ (b.core c0).macRun = some j ∧ (b.core c0).macWait = none ∧ b.ready t0 ∧
    b.regionRuns (regionOf c0) = true ∧ firstFault (macChecks b t0 m) = none ∧ (b.core c0).tileRead false = false ∧
    (∀ k ∈ [s.core c0, b.core c0, q.core c0], k.movesInto 0 [false] (some false) = false ∧ k.movesInto 0 [false] none = false ∧ k.released = []) ∧
    ({ thread := 0, f := m } : MacJob).solderRanges (s.core c0) = [] ∧
    q.ready t0 ∧ firstFault (macaChecks q t0 a) = none ∧ (q.core c0).heldByMove 0 false 0x200000 32 = false ∧
    (q.core c0).doubleAt 0x200000 32 = false ∧ q.vatOf c0 = some 0 ∧ (∀ t ∈ ja.tiles, (q.core c0).tileRead t = false) ∧
    (∀ p ∈ macaReads (q.core c0) ja (q.vfld 0 .kvConf 26 23), (q.core c0).heldByMove 0 false p.1 p.2 = false) ∧
    (∀ p ∈ macaWrites ja (q.vfld 0 .kvConf 26 23), (q.core c0).heldByMove 0 true p.1 p.2 = false) ∧
    (s.core c0).tileBusy false = false ∧ s.memOk = true ∧ (s.core c0).inSpm 0x200000 16 = true ∧
    memNat (s.core c0).mem 0x200000 4 = 0xFFFFFFFF ∧ (s.core c0).inSpm (memNat (s.core c0).mem 0x200004 4) 4 = true ∧
    (s.core c0).inSpm (memNat (s.core c0).mem 0x200008 4) 4 = true ∧ (s.core c0).inSpm (memNat (s.core c0).mem 0x20000C 4) 4 = true := by
  unfold State.ready; decide +kernel

theorem test_tclr : after (exec (.tclr t0 {}) (running [] [(0x2FFFFF, 1), (0x300000, 1), (0x307FFF, 1), (0x308000, 1)]))
    (fun u => (u.core c0).mem) = some [(0x2FFFFF, 1), (0x308000, 1)] := by decide

/-! ## Moves, sends, descriptors -/

/-- Ranges that touch; the empty and the overlapping ones. -/
theorem witness_TmovCopies :
    let s := running [(1, 0x200000), (2, 0x200008), (3, 8), (4, 0x200004)]
    let k := s.core c0
    let m : Move := { thread := 0, src := 0x200000, dst := 0x200008, len := 8 }
    s.ready t0 ∧ s.memOk = true ∧ k.heldByMove 0 false 0x200000 8 = false ∧ k.heldByMove 0 true 0x200008 8 = false ∧ k.inSpm 0x200000 8 = true ∧
    k.inSpm 0x200008 8 = true ∧ k.doubleAt 0x200000 8 = false ∧ ((s.thread t0).sreg 0).toNat = 0 ∧ k.inSpm 0x200004 8 = true ∧
    (({ busy [] [] with moves := [m] } : Core).moves = m :: []) ∧ s.regionRuns 0 = true := by unfold State.ready; decide
/-- One flit to the core beside it, in the vat; to a core of another region, outside it; to a core of the other half, without a share of a
seam port and with one. -/
theorem witness_SendInjectsMessage :
    let s := running [(1, 1), (2, 0x200000), (3, 64), (4, 31)]
    let far : Word64 := 192 * 512
    let x := withCore (busy [] []) [(.meshShare 128 0, 1)]
    s.ready t0 ∧ s.vatOf c0 = some 0 ∧ firstFault (sendChecks s t0 { dst := 1, src := 2, len := 3, vc := 1 }) = none ∧
    s.targetsInVat 0 [coreOf 1 0] = true ∧ firstFault (sendChecks s t0 { dst := 4, src := 2, len := 3, vc := 1 }) = none ∧
    s.targetsInVat 0 [coreOf 31 0] = false ∧ (s.core c0).busyAt 0x200000 64 = false ∧ (s.core c0).heldByMove 0 false 0x200000 64 = false ∧
    (s.core c0).doubleAt 0x200000 64 = false ∧ firstFault (sendChecks s t0 { src := 2, len := 3, vc := 1, mc := 1, mdir := 1, mspan := 2 }) = none ∧
    s.targetsInVat 0 (mcastTargets c0 1 2) = true ∧ crossesHalf c0 1 = false ∧ crossesHalf c0 far = true ∧ s.crossesSeam 0 = false ∧
    x.crossesSeam 0 = true := by unfold State.ready; decide +kernel
/-- A local descriptor: 8 bytes from 0x200100 to 0x200200 (bits 25:4 hold the address, R229). -/
def descMem : Mem := [(0x200001, 0x10), (0x200003, 2), (0x200009, 0x20), (0x20000B, 2), (0x200010, 8)]
/-- That descriptor, queued and active. -/
def moveDesc : Desc := { src := 0x2001000, dst := 0x2002000, length := 8, statusAddr := 0x200300 }
/-- The queue with one place and full; a misaligned one; the start with seven and with eight active. -/
theorem witness_DescriptorQueue :
    let s := running [(1, 0x200000), (2, 0x200010)] descMem
    let q := withCore { busy [] descMem with dmaQ := List.replicate 31 moveDesc, dmaActive := List.replicate 7 moveDesc } []
    let e := withCore { busy [] descMem with dmaQ := List.replicate 32 moveDesc, dmaActive := List.replicate 8 moveDesc } []
    s.ready t0 ∧ (s.core c0).dmaQ.length < 32 ∧ (s.core c0).heldByMove 0 false 0x200000 32 = false ∧ (s.core c0).doubleAt 0x200000 32 = false ∧
    firstFault (descChecks s t0 0x200000 false) = none ∧ firstFault (descChecks s t0 0x200000 true) = none ∧ 0x200010 % 32 ≠ 0 ∧
    e.ready t0 ∧ 32 ≤ (e.core c0).dmaQ.length ∧ (q.core c0).dmaQ = moveDesc :: List.replicate 30 moveDesc ∧ q.vatOf c0 = some 0 ∧
    q.regionRuns (regionOf c0) = true ∧ startHeld q c0 moveDesc = false ∧ (q.core c0).dmaActive.length < 8 ∧ moveDesc.isWalk = false ∧
    kindOf moveDesc.src = 0 ∧ kindOf moveDesc.dst = 0 ∧ descFault q c0 0 moveDesc = none ∧
    8 ≤ (e.core c0).dmaActive.length ∧ (e.core c0).dmaActive ≠ [] ∧ ({ moveDesc with fence := true } : Desc).fence = true := by
  unfold State.ready; decide +kernel
theorem witness_LocalCopyCompletes :
    let s := withCore { busy [] [] with dmaActive := [moveDesc] } []
    let k := s.core c0
    s.memOk = true ∧ k.dmaActive[0]? = some moveDesc ∧ s.regionRuns (regionOf c0) = true ∧ moveDesc.isWalk = false ∧ moveDesc.result = none ∧
    moveDesc.signal = false ∧ kindOf moveDesc.src = 0 ∧ kindOf moveDesc.dst = 0 ∧ k.inSpm (addr0 moveDesc.src) 8 = true ∧
    k.inSpm (addr0 moveDesc.dst) 8 = true ∧ k.doubleAt (addr0 moveDesc.src) 8 = false ∧ addr0 moveDesc.src + 8 ≤ addr0 moveDesc.dst ∧
    moveDesc.statusAddr % 4 = 0 ∧ k.inSpm moveDesc.statusAddr 4 = true ∧ addr0 moveDesc.dst + 8 ≤ moveDesc.statusAddr ∧
    moveHeld s c0 moveDesc = false := by decide +kernel

theorem test_tmov : after (exec (.tmov t0 { dst := 1, src := 2, len := 3 })
    (running [(1, 0x200100), (2, 0x200000), (3, 4)] [(0x200000, 9), (0x200003, 7), (0x200102, 5)])) (fun u => (u.core c0).mem) =
    some [(0x200000, 9), (0x200003, 7), (0x200100, 9), (0x200103, 7)] := by decide +kernel
/-- The copy lands and the status word holds DONE and OK. -/
theorem test_dma_complete : after (exec (.dmaDescriptorComplete c0 0)
    (withCore { busy [] [(0x200107, 0x55)] with dmaActive := [moveDesc] } [])) (fun u => (u.core c0).mem) =
    some [(0x200107, 0x55), (0x200207, 0x55), (0x200301, 1)] := by decide +kernel

/-! ## Waits, signals and threads -/

/-- Registers of vat 0 that make id 5 a counter that notifies region 0, and id 6 a barrier of two arrivals. -/
def syncRegs : KMap Reg Word64 :=
  [(.vat 0 (.syncMap 5), 1), (.vat 0 (.ctr 5 1), 0x10F8003C00), (.vat 0 (.syncMap 6), 5), (.vat 0 (.ctr 6 0), 0x900000000),
   (.vat 0 (.ctr 6 1), 0x10F8003C00)]
/-- SADD on a counter and on an id with none; an arrival that is the first and one that is the second; waits on both sides of the
half way; a thread with a send not delivered. -/
theorem witness_WaitAndSignalResult :
    let s := withCore { busy [(1, 0x80000000), (2, 0x80000001)] [] with mirrors := [(6, { arrived := 0 })] } syncRegs
    let a := withCore { busy [] [] with mirrors := [(6, { arrived := 1 })] } syncRegs
    let p := withCore { threads := [(0, { status := .ready, undelivered := 1 })] } syncRegs
    s.ready t0 ∧ s.vatOf c0 = some 0 ∧ (s.thread t0).undelivered = 0 ∧ (s.syncMap 0 5).isSome = true ∧ s.syncMap 0 7 = none ∧
    s.mirrored 0 6 c0 = true ∧ s.isBarrier 0 6 = true ∧ bitAt (s.mirror 0 6 c0).arrived 0 = false ∧ bitAt (a.mirror 0 6 c0).arrived 0 = true ∧
    a.ready t0 ∧ p.ready t0 ∧ (p.thread t0).undelivered ≠ 0 ∧ s.mirrored 0 5 c0 = true ∧ s.isBarrier 0 5 = false ∧
    ((s.mirror 0 5 c0).value - ((s.thread t0).sreg 2).setWidth 32).toNat = 2 ^ 31 - 1 ∧
    ((s.mirror 0 5 c0).value - ((s.thread t0).sreg 1).setWidth 32).toNat = 2 ^ 31 := by unfold State.ready; decide +kernel
/-- FENCE with and without a MAC of the thread; TSTART of an idle and of a busy thread, at the last index. -/
theorem witness_ThreadControlResult :
    let s := running []
    let b := withCore { busy [] [] with macRun := some { thread := 0, f := {} } } []
    let two := withCore { threads := [(0, { status := .ready }), (1, { status := .ready })] } []
    s.canIssue t0 = true ∧ (s.thread t0).pc ≠ 2047 ∧ fenceMet (s.core c0) 0 = true ∧ b.canIssue t0 = true ∧ fenceMet (b.core c0) 0 = false ∧
    (s.thread ⟨c0, 1⟩).status = .idle ∧ (two.thread ⟨c0, 1⟩).status ≠ .idle ∧ ({ thread := 1, target := 2047 } : FmtB).target.toNat < 2048 ∧
    ({ thread := 1 } : FmtB).thread.toNat ≠ t0.thread.val ∧ inOpcodeMap ((0x11 : Word64).toNat % 256) = false := by decide
/-- TSTART puts s[B] into s0 of the thread it starts. -/
theorem test_tstart : after (exec (.tstart t0 { b := 1, thread := 3, target := 40 }) (running [(1, 77)]))
    (fun u => ((u.thread ⟨c0, 3⟩).pc, (u.thread ⟨c0, 3⟩).sreg 0, (u.thread ⟨c0, 3⟩).status)) = some (40, 77, .ready) := by decide
theorem test_eob : after (exec (.eob t0 {}) (running [])) (fun u => ((u.thread t0).status, (u.thread t0).pc)) = some (.eob, 1) := by decide
theorem test_waitv : after (exec (.waitv t0 { vid := 5, s := 1 }) (withCore (busy [(1, 1)] []) syncRegs))
    (fun u => (u.thread t0).status) = some (.waitV 5 1) := by decide +kernel

/-! ## The mesh -/

/-- A flit of vat 0 to the router ⟨1, 0⟩. -/
def flit : Flit := { dstPx := 1, dstPy := 0, data := [1, 2, 3, 4], bytes := 4, dstAddr := 0x200000, uid := 7 }
/-- A module in which one router holds this. -/
def withRouter (r : RouterId) (k : Router) (rs : KMap Reg Word64 := []) : State := { serving rs with routers := [(r, k)] }
/-- The east output of the router ⟨0, 0⟩ sends the flit at the local input, its local output one that has come from the east, its south output
one of a dead link's replay buffer; another router has no core that runs. -/
theorem witness_FlitForwardSends :
    let g : Flit := { flit with bypass := true, via := [2, 1] }
    let s := (withRouter r0 { inq := [((4, 1), [flit]), ((1, 1), [{ flit with dstPx := 0 }])], redo := [g] }).notifyNext r0
    s.routerWorks r0 = true ∧ s.arbitrate r0 1 0 = some (some (4, 1), flit) ∧ dirOf 1 = some 1 ∧ s.seamAt r0 1 = none ∧ s.rimAt r0 1 = none ∧
    flit.mcast = false ∧ flit.bypass = false ∧ s.arbitrate r0 4 0 = some (some (1, 1), { flit with dstPx := 0 }) ∧
    s.arbitrate r0 2 0 = some (none, g) ∧ dirOf 2 = some 2 ∧ s.seamAt r0 2 = none ∧ s.rimAt r0 2 = none ∧ s.arbitrate r0 3 0 = none ∧
    s.routerWorks ⟨32, 0⟩ = false := by decide +kernel
/-- On the link from ⟨1, 0⟩ west to ⟨0, 0⟩: the number expected, another, and a replay asked for. -/
theorem witness_FlitLinkProtocol :
    let q : RouterId := ⟨1, 0⟩
    let s := withRouter q { wire := [(3, [flit])], replay := [(3, [flit])], replayReq := [(3, 0)] }
    let a := withRouter q { wire := [(3, [{ flit with lseq := 63 }])] }
    neighbour r0 1 = some q ∧ s.routerWorks r0 = true ∧ kget [] (s.router q).wire (1 + 2) = flit :: [] ∧ flit.bypass = false ∧
    flit.lseq = kget 0 (s.router r0).lseqIn 1 ∧ kget [] (a.router q).wire (1 + 2) = { flit with lseq := 63 } :: [] ∧
    63 ≠ kget 0 (a.router r0).lseqIn 1 ∧ kget 0 (s.router q).fails (1 + 2) < 3 ∧ kfind (s.router q).replayReq (1 + 2) = some 0 ∧
    neighbour q (1 + 2) = some r0 := by decide
/-- A router in the grid has a neighbour each way; one at the north-west corner has none north or west of it. -/
theorem test_neighbour :
    (allFin 4).map (neighbour ⟨5, 7⟩) = [some ⟨5, 6⟩, some ⟨6, 7⟩, some ⟨5, 8⟩, some ⟨4, 7⟩] ∧
    (allFin 4).map (neighbour ⟨0, 0⟩) = [none, some ⟨1, 0⟩, some ⟨0, 1⟩, none] ∧
    (allFin 4).map (neighbour ⟨511, 383⟩) = [some ⟨511, 382⟩, none, none, some ⟨510, 383⟩] := by decide
/-- A data flit of its own stage and one of another, a NOTIFY, an acknowledgement and a flit of another vat at the delivery of ⟨0, 0⟩; an ADD at a
store; acknowledgements of a thread, of a SIGNAL and of a descriptor; a credit. -/
theorem witness_FlitDeliveryWrites :
    let n : Flit := { flit with cls := 3, data := signalBytes 3 1 5 0 0 9 }
    let s := withRouter r0 { deliver := [flit] }
    let m := withRouter r0 { deliver := [n] }
    let x := withRouter r0 { deliver := [{ flit with vat := 1 }] }
    let d : Flit := { flit with src := ⟨1, 0⟩ }
    let h : State := { withRouter r0 { deliver := [d] } with
      vats := [(0, { ingot := some { stages := [{ cores := [c0] }, { cores := [⟨1, 0⟩] }] } })] }
    let a : Flit := { flit with ack := true }
    let t : RouterId := ⟨15, 111⟩
    let e : Flit := { cls := 3, data := signalBytes 1 0 5 0 2 0 }
    let z := withRouter t { deliver := [e] } [(.vat 0 (.vatRegions 0), 0x1000000000001), (.pwrRegion 48, 0x4000)]
    let k (x : Option (Fin 16) × Nat) : Core := { busy [] [] with acks := [x] }
    s.memOk = true ∧ s.routerWorks r0 = true ∧ (s.router r0).deliver = flit :: [] ∧ s.coreAt r0 = some c0 ∧ s.vatOf c0 = some flit.vat ∧
    flit.cls = 0 ∧ flit.op = 0 ∧ flit.data.length = flit.bytes ∧ (s.core c0).inSpm flit.dstAddr flit.bytes = true ∧
    s.handedOff flit c0 = false ∧ (s.core c0).doubleAt flit.dstAddr flit.bytes = false ∧ h.handedOff d c0 = true ∧ d.cls = 0 ∧ d.ack = false ∧
    a.ack = true ∧ a.seam = none ∧ (z.storeAtRouter t).isSome = true ∧ (z.coreAt t).isSome = true ∧ z.routerWorks t = true ∧ z.memOk = true ∧
    (z.router t).deliver = e :: [] ∧ e.ack = false ∧ e.cls = 3 ∧
    leAt e.data 0 1 = 1 ∧ (k (none, 0)).acks = (none, 0) :: [] ∧ (k (none, 4)).acks = (none, 4) :: [] ∧
    (m.router r0).deliver = n :: [] ∧ n.cls = 3 ∧ leAt n.data 0 1 = 3 ∧ (x.router r0).deliver = { flit with vat := 1 } :: [] ∧
    x.vatOf c0 ≠ some 1 ∧ ({ busy [] [] with acks := [(some 0, 3)] } : Core).acks = (some 0, 3) :: [] ∧
    kget 0 ((withRouter r0 { returning := [((1, 1), 1)] }).router r0).returning (1, 1) ≠ 0 := by decide +kernel
/-- A state commit that crosses seam port 0 to the south, with and without a share; a link's packet, the heaviest that a weight of 1
covers, with a weight of 1 and of 0. -/
theorem witness_SharedPortService :
    let g : Flit := { flit with cls := 2, dstPx := 0, dstPy := 192 }
    let rs : KMap Reg Word64 := [(.vat 0 (.vatRegions 1), 0x100000000), (.meshShare 128 0, 1)]
    let s : State := { serving rs with seams := [(0, { arrived := [(.south, [[g]])] })] }
    let x : State := { serving [] with seams := [(0, { arrived := [(.south, [[g]])] })] }
    let p : Packet := { length := 512 }
    let l : State := { serving [(.linkStatus 0, 1), (.linkShare 0 0, 1)] with scheds := [((.link 0, true), { waiting := [(0, [.packet p])] })] }
    kget [] (kget {} s.seams 0).arrived .south = (g :: []) :: [] ∧ s.seamPasses 0 [g] = true ∧ x.seamPasses 0 [g] = false ∧
    x.exists_ g.vat = true ∧ (l.link 0).ahead = [] ∧ kget [] (l.sched (.link 0) true).waiting (seatOf 0) = [p].map Parcel.packet ∧
    (∀ who : Fin 65, who ≠ seatOf 0 → kget [] (l.sched (.link 0) true).waiting who = []) ∧ l.canCarry (.link 0) true (.packet p) = true ∧
    l.weight (.link 0) 0 ≠ 0 ∧ 64 * ((p.length.toNat + 63) / 64) ≤ 512 * l.weight (.link 0) 0 ∧
    ({ l with regs := (.linkShare 0 0, 0) :: l.regs } : State).weight (.link 0) 0 = 0 := by decide +kernel
/-- A drained vat with a router whose shadows are good, one at an odd column whose shadow turns what comes from the south to the west, one with a flit on its way, and a
pending set whose tick has come and one whose tick has not. -/
theorem witness_MeshTablesCommit :
    let s := withRouter r0 { slotShadow := [((4, 255), 1)] }
    let b := withRouter ⟨1, 1⟩ { routeShadow := [(0, 0xBFF803FE00)] }
    let x := withRouter r0 { deliver := [flit] }
    let p : MeshSet := { routes := [(r0, 0, 0)], slots := [(r0, (4, 255), 1)], due := some 4 }
    let m : State := { s with meshStaged := [(0, p), (1, { p with due := none })] }
    s.drained 0 = true ∧ (∀ r ∈ s.vatRouters 0, s.shadowBad r = false) ∧ x.drained 0 = false ∧ ⟨1, 1⟩ ∈ b.vatRouters 0 ∧ b.shadowBad ⟨1, 1⟩ = true ∧
    kfind m.meshStaged 0 = some p ∧ p.due = some 4 ∧ (p.routes.map (fun e => (e.1, e.2.1))).Nodup ∧
    (p.slots.map (fun e => (e.1, e.2.1))).Nodup ∧ kfind m.meshStaged 1 = some { p with due := none } := by decide +kernel

/-- Forwarding puts the flit on the wire with the link's number and uses a credit. -/
theorem test_flitForward : after (exec (.flitForward r0 1 0) (withRouter r0 { inq := [((4, 1), [flit])], lseqOut := [(1, 63)] }))
    (fun u => ((kget [] (u.router r0).wire 1).map Flit.lseq, kget 9 (u.router r0).lseqOut 1, kget 0 (u.router r0).used (1, 1),
      kget [] (u.router r0).inq (4, 1))) = some ([63], 0, 1, []) := by decide +kernel
theorem test_flitDelivery : after (exec (.flitDelivery r0) (withRouter r0 { deliver := [flit] })) (fun u => (u.core c0).mem) =
    some [(0x200000, 1), (0x200001, 2), (0x200002, 3), (0x200003, 4)] := by decide +kernel

/-! ## Ticks, commits and beats -/

theorem witness_TickCountsModulo :
    let s : State := { serving [] with tickNorth := 2 ^ 48 - 1, staged := [(none, { vals := [] })], meshStaged := [(0, {})] }
    s.runs .north = true ∧ s.twin.taking = [] ∧ s.rimHalf = .north ∧ kfind s.staged none = some { vals := [] } ∧
    kfind s.meshStaged 0 = some {} ∧ State.reset.runs .south = false := by decide
theorem witness_TickLossFences : (serving []).regionOn 0 = true ∧ (serving []).pow.fenced.contains 0 = false ∧ (serving []).ownerOf 0 = some 0 := by
  decide
/-- A period of 499 ns and of 500 ns in the shadow; a vat's commit; sets whose tick has come, with a command of 5 and of 6. -/
theorem witness_StagedCommits :
    let a : State := { serving [] with shadow := [(.tickPeriod, 499)] }
    let b : State := { serving [] with shadow := [(.tickPeriod, 500)] }
    let c : State := { serving [] with staged := [(none, { vals := [(.tickPeriod, 700)], due := some 4 })] }
    let v5 : State := { serving [] with staged := [(some 0, { vals := [(.vat 0 .vatCtrl, 5)], due := some 4 })] }
    let v6 : State := { serving [] with staged := [(some 0, { vals := [(.vat 0 .vatCtrl, 6)], due := some 4 })] }
    kfind a.staged none = none ∧ fld (a.shadowOf .tickPeriod) 15 0 < 500 ∧ kfind b.staged none = none ∧ 500 ≤ fld (b.shadowOf .tickPeriod) 15 0 ∧
    kfind a.staged (some 0) = none ∧ kfind c.staged none = some { vals := [(.tickPeriod, 700)], due := some 4 } ∧
    kfind v5.staged (some 0) = some { vals := [(.vat 0 .vatCtrl, 5)], due := some 4 } ∧ 1 ≤ (5 : Word64).toNat % 8 ∧
    kfind v6.staged (some 0) = some { vals := [(.vat 0 .vatCtrl, 6)], due := some 4 } ∧ 6 ≤ (6 : Word64).toNat % 8 := by decide
/-- A ring of one stage. -/
def oneStage : IngotTable := { stages := [{ cores := [c0] }] }
/-- A core held at EOB in a vat whose gate stands before and at its multiple of 2, with every stage done and with none; a slip that has
passed the limit; a stage that may report. -/
theorem witness_BeatGateResult :
    let g : Flit := { flit with src := ⟨1, 0⟩ }
    let k : Core := { threads := [(0, { status := .eob })], handoff := [g] }
    let gate (n : Nat) (done : List Nat) : State := { withCore k [(.vat 0 .vatBeat, 1)] with vats := [(0, { elapsed := n, ingot := some oneStage, done := done, edges := 1 })] }
    kfind (gate 0 [0]).staged (some 0) = none ∧ (gate 0 [0]).vstate 0 = 2 ∧ ((gate 0 [0]).vat 0).gateOff = false ∧
    ((gate 0 [0]).vat 0).stopDue = false ∧ ((gate 0 [0]).vat 0).gateTick ≠ some (gate 0 [0]).now ∧ ((gate 0 [0]).vat 0).elapsed + 1 < 2 ∧
    min 16 ((gate 0 []).vfld 0 .vatBeat 3 0 + 1 + (gate 0 []).rfld (.thermVat 0) 4 1) = 2 ∧ 2 ≤ ((gate 1 [0]).vat 0).elapsed + 1 ∧
    ((gate 1 []).modVat 0 (fun x => { x with elapsed := x.elapsed + 1, gateTick := some 0 })).allDone 0 = false ∧
    ((gate 1 [0]).modVat 0 (fun x => { x with elapsed := 2, gateTick := some 0, pails := [(0, { filledAt := some 1 })] })).allDone 0 = true ∧
    (gate 1 [0]).holds 0 (regionOf c0) = true ∧ kfind (gate 1 [0]).cores c0 = some k ∧ (gate 1 [0]).memOk = true ∧
    ((gate 1 [0]).core c0).handoff = [g] ∧ ((gate 1 [0]).core c0).released = [] ∧ g.op = 0 ∧ g.data.length = g.bytes ∧
    ((gate 1 [0]).core c0).inSpm g.dstAddr g.bytes = true ∧ ((gate 1 [0]).core c0).doubleAt g.dstAddr g.bytes = false ∧
    ((gate 1 [0]).ring 0).length ≠ 0 ∧ (gate 1 [0]).vfld 0 .vatBeat 11 4 = 0 ∧
    (((gate 1 [0]).core c0).thread 0).status = .eob ∧ ({ slipDue := some 9 } : Vat).slipDue = some 9 ∧
    ((gate 1 []).ring 0)[0]? = some { cores := [c0] } ∧ 0 ∉ ((gate 1 []).vat 0).done ∧
    (∀ c ∈ [c0], ((gate 1 []).core c).done = true ∧ ((gate 1 []).core c).delivered = true) := by decide +kernel

/-- The last number of 48 bits is followed by 0; the south half keeps its own. -/
theorem test_tick : after (exec (.tick .north) { serving [] with tickNorth := 2 ^ 48 - 1, tickSouth := 5 })
    (fun u => (u.tickNorth, u.tickSouth)) = some (0, 5) := by decide

/-! ## Counters, mirrors and lending -/

/-- The store of id 5 of vat 0, which its map puts at index 0 of the north store of column 0. -/
def storeAt0 : RouterId := ⟨15, 111⟩
/-- Registers for it: region 48 runs for vat 0; id 5 is a counter that stands at 2^32 − 1, id 6 a barrier of two whose first has come. -/
def storeRegs (ctr6 : Word64) : KMap Reg Word64 :=
  [(.vat 0 (.vatRegions 0), 0x1000000000001), (.pwrRegion 48, 0x4000), (.vat 0 (.syncMap 5), 1), (.vat 0 (.ctr 5 0), 0xFFFFFFFF),
   (.vat 0 (.ctr 5 1), 0x10F8003C00), (.vat 0 (.syncMap 6), 5), (.vat 0 (.ctr 6 0), ctr6)]
/-- A state with one SIGNAL at that store. -/
def signalled (f : Flit) (ctr6 : Word64 := 0x900000000) : State :=
  { withRouter storeAt0 { storeQ := [f] } (storeRegs ctr6) with ctrVat := [((.north, 0), 0), ((.north, 1), 0)] }
/-- A NOTIFY for id 5 at a core whose threads wait: it satisfies targets up to half way. -/
def notified : Core :=
  { threads := [(0, { status := .waitV 5 9 }), (1, { status := .waitV 5 10 }), (2, { status := .waitG 5 }), (3, { status := .heldArrive 5 })],
    notifyQ := [{ flit with cls := 3, data := signalBytes 3 1 5 0 0 9 }] }
theorem witness_CounterStoreResult :
    let a : Flit := { cls := 3, data := signalBytes 1 0 5 0 2 0 }
    let b : Flit := { cls := 3, data := signalBytes 2 0 6 1 0 0 }
    let x : Flit := { cls := 3, vat := 1, data := signalBytes 1 0 5 0 2 0 }
    ((signalled a).router ((signalled a).storeRouter .north 0)).storeQ = a :: [] ∧
    (signalled a).regionRuns (regionAt ((signalled a).storeRouter .north 0)) = true ∧ (signalled a).ownsEntry .north 0 a = true ∧
    (signalled a).isBarrier 0 (flitVid a) = false ∧ leAt a.data 0 1 = 1 ∧ (signalled b).ownsEntry .north 0 b = true ∧
    (signalled b).isBarrier 0 (flitVid b) = true ∧ leAt b.data 0 1 = 2 ∧
    leAt b.data 1 1 % 2 = ((signalled b).vreg 0 (.ctr 6 0)).toNat / 2 ^ 33 % 2 ∧ ((signalled b).vreg 0 (.ctr 6 0)).toNat % 2 ^ 16 + 1 ≠ 2 ∧
    ((signalled b 0x900000001).vreg 0 (.ctr 6 0)).toNat % 2 ^ 16 + 1 = ((signalled b 0x900000001).vreg 0 (.ctr 6 0)).toNat / 2 ^ 34 % 2 ^ 16 ∧
    (signalled x).ownsEntry .north 0 x = false ∧ notified.notifyQ ≠ [] ∧ (notified.thread 0).status = .waitV 5 9 ∧
    ((9 : Word32) - 9).toNat < 2 ^ 31 ∧ 2 ^ 31 ≤ ((9 : Word32) - 10).toNat ∧ (notified.thread 2).status = .waitG 5 := by decide +kernel
/-- Threads of a core that have waited long enough; THRESH 0; a region half of whose cores are marked, beside one that may be lent a
step; a region below and above its target. -/
theorem witness_LendingAndSteps :
    let s := withCore { threads := [(0, { status := .waitG 5 }), (1, {})] } [(.vat 0 .vatLend, 1)]
    let w : State := { s with tickNorth := 1 }
    let marked : KMap CoreId Core := ((allFin 496).filter (fun x => decide (x.val < 31))).flatMap (fun x =>
      ((allFin 384).filter (fun y => decide (y.val < 16))).map (fun y => (⟨x, y⟩, { idleMark := true })))
    let l : State := { serving [(.vat 0 (.vatRegions 0), 3), (.vat 0 .vatLend, 0x10000), (.pwrRegion 1, 0x40F5)] with cores := marked }
    let g (n : Word64) : State := serving [(.pwrRegion 0, 0x40FF), (.thermRegion 0, n)]
    w.vatOf c0 = some 0 ∧ w.vfld 0 .vatLend 15 0 ≠ 0 ∧ w.regionRuns (regionOf c0) = true ∧
    (∀ p ∈ (w.core c0).threads, p.2.restful (w.winTicks (10 * w.vfld 0 .vatLend 15 0)) (w.tickOf (halfOf (regionOf c0))) = true) ∧
    (serving [(.vat 0 .vatLend, 0)]).vfld 0 .vatLend 15 0 = 0 ∧ l.mayLend 0 1 = true ∧ (g 0).regionOn 0 = true ∧ (g 0).stepOf 0 < (g 0).stepTarget 0 ∧
    (g 0).stepOf 0 < 15 ∧ (serving [(.thermRegion 0, 0xF0000)]).stepTarget 0 < (serving [(.thermRegion 0, 0xF0000)]).stepOf 0 := by decide +kernel

/-- 2^32 − 1 plus 2 wraps to 1. -/
theorem test_storeAdd : after (exec (.storeAdd .north 0) (signalled { cls := 3, data := signalBytes 1 0 5 0 2 0 }))
    (fun u => u.vfld 0 (.ctr 5 0) 31 0) = some 1 := by decide +kernel
/-- The second arrival of two closes the round: count 0, the other generation. -/
theorem test_storeArrive : after (exec (.storeArrive .north 0) (signalled { cls := 3, data := signalBytes 2 0 6 1 0 0 } 0x900000001))
    (fun u => (u.vfld 0 (.ctr 6 0) 15 0, u.vfld 0 (.ctr 6 0) 33 33, (u.ctr 0 6).rounds)) = some (0, 1, 1) := by decide +kernel
theorem test_notify : after (exec (.notify c0) (withCore notified []))
    (fun u => (((u.core c0).thread 0).status, ((u.core c0).thread 1).status, ((u.core c0).thread 2).status)) =
    some (.ready, .waitV 5 10, .ready) := by decide +kernel

/-! ## Faults, stops and vat commands -/

/-- A report on a clear record and one on a filled record; a stop that is due. -/
theorem witness_FaultRecordAndStop :
    let r : FaultReport := { vat := 0, status := .address, source := true }
    let s : State := { serving [] with reports := [r] }
    let x : State := { serving [(.vat 0 (.vatFault 0), 6)] with reports := [r] }
    let d : State := { withCore (busy [] []) [] with vats := [(0, { stopDue := true })] }
    (s.reportsOf 0)[0]? = some (r, 0) ∧ s.vfld 0 (.vatFault 0) 7 0 = 0 ∧ (x.reportsOf 0)[0]? = some (r, 0) ∧ x.vfld 0 (.vatFault 0) 7 0 ≠ 0 ∧
    s.vstate 0 ∈ [2, 3, 4] ∧ (d.vat 0).stopDue = true ∧ d.vstate 0 ∈ [2, 3, 4] ∧ d.vatOf c0 = some 0 ∧
    (∃ k, kfind d.cores c0 = some k) ∧ (s.vat 0).stopDue = false :=
  ⟨by decide, by decide, by decide, by decide, by decide, by decide, by decide, by decide, ⟨_, rfl⟩, by decide⟩
/-- START in LOADED and in RUNNING, QUIESCE in RUNNING and LOADED, RESUME in QUIESCED and LOADED, a vat that is quiescing and quiet. -/
theorem witness_VatCommandResult :
    let c (n : BitVec 3) (st : Word64) : State := { vatIn st [(.thermWarm 0, 1)] with vats := [(0, { cmd := n })] }
    let q : State := serving [(.vat 1 .vatStatus, 3)]
    (∀ n : Fin 4, ∀ st : Fin 5, let s := c (BitVec.ofNat 3 n) (BitVec.ofNat 64 st)
      kfind s.staged (some 0) = none ∧ (s.vat 0).stopDue = false ∧ s.vstate 0 = st.val ∧ (s.vat 0).cmd.toNat = n.val) ∧
    (c 1 1).regionsReady 0 = true ∧ ({ c 1 1 with regs := (.pwrRegion 0, 0) :: (c 1 1).regs } : State).regionsReady 0 = false ∧
    q.vstate 1 = 3 ∧ q.quiet 1 = true := by decide +kernel
/-- A vat of no core listed. -/
theorem core_unlisted (s : State) (h : s.cores = []) (c : CoreId) : ∃ b, s.core c = freshCore b := by
  simp [State.core, h, kfind]
/-- RESET in each state that takes it and RELEASE in FREE and LOADED; a drained vat that is being reset, and one being released. -/
theorem witness_ResetAndRelease :
    let s : State := { vatIn 6 [] with vats := [(0, { wiping := .reset })] }
    let r : State := { vatIn 6 [] with vats := [(0, { wiping := .release })] }
    (∀ n ∈ [1, 2, 3, 4, 5], (vatIn (BitVec.ofNat 64 n) []).vstate 0 = n) ∧ (vatIn 0 []).vstate 0 = 0 ∧
    (({ cmd := 4 } : Vat).cmd = 4) ∧ (({ cmd := 5 } : Vat).cmd = 5) ∧ s.vstate 0 = 6 ∧ (s.vat 0).wiping = .reset ∧ s.drained 0 = true ∧
    (∀ c, s.holds 0 (regionOf c) = true → (s.core c).macRun = none ∧ (s.core c).macWait = none ∧ (s.core c).moves = [] ∧
      (s.core c).dmaActive = []) ∧ r.vstate 0 = 6 ∧ (r.vat 0).wiping = .release := by
  intro s r
  refine ⟨by decide, by decide, by decide, by decide, by decide, by decide, by decide, fun c _ => ?_, by decide, by decide⟩
  obtain ⟨b, hb⟩ := core_unlisted s rfl c
  rw [hb]; cases b <;> decide

/-! ## Memory errors and recipe reports -/

theorem witness_ErrorsAndRecipes :
    let s := withCore (busy [] []) [(.pwrDefect 0, 0x280000)]
    let r : RecipeReport := { vat := 0, core := c0, tag := 4095, cause := 3, tick := 5 }
    let p : State := { s with recipes := [r] }
    (s.core c0).reach 0x20BFFF 1 = some .spm ∧ s.regionRuns (regionOf c0) = true ∧ s.vatOf c0 = some 0 ∧ (s.core c0).eccLog = [] ∧
    (s.core c0).wb ≤ 3072 ∧ (s.core c0).eccDouble = [] ∧ (s.core c0).fixLog = [] ∧ (s.core c0).eccSingle.length ≤ 16 ∧
    s.regionOn (regionOf c0) = true ∧ s.regionRetired (regionOf c0) = false ∧ s.defective (s.posOf c0) = false ∧
    ((p.recipes.zip (upTo p.recipes.length)).filter (fun q => q.1.vat = 0))[0]? = some (r, 0) ∧
    p.vfld 0 (.recipe 4095 0) 3 0 = 0 := by decide +kernel
theorem test_recipeReport : after (exec (.recipeReport 0 0) { serving [] with recipes := [{ vat := 0, core := ⟨495, 383⟩, tag := 64, cause := 2, tick := 5 }] })
    (fun u => (u.vreg 0 (.recipe 64 0), u.vreg 0 (.recipe 64 1), u.vreg 0 (.recipeSummary 1))) =
    some (0x2FFEF00010004, 5, 1) := by decide +kernel

/-! ## Regions -/

/-- A queue with a region; a region that is powering with its cream kept and with a relock due, whose fuse of its group has tripped, and
that has aborted once. -/
theorem witness_RegionWakes :
    let s : State := { serving [] with pow := { wakeNorth := [(0, 5)], powering := [0, 2], needRelock := [2], relocking := [1], aborted := [3] } }
    let f : State := { serving [(.pwrGroup 0, 0x40)] with pow := { powering := [0], abortedOnce := [0] } }
    let g : State := { serving [(.pwrGroup 0, 0x40)] with pow := { powering := [0] } }
    s.wakes .north = (0, 5) :: [] ∧ 2 ≤ s.modState ∧ s.modState < 6 ∧ 0 ∈ s.pow.powering ∧ 0 ∉ s.pow.offPending ∧ 0 ∉ s.pow.needRelock ∧
    2 ∈ s.pow.powering ∧ 2 ∈ s.pow.needRelock ∧ f.rfld (.pwrGroup (groupOf 0)) 6 6 = 1 ∧ 0 ∈ f.pow.powering ∧ 0 ∈ f.pow.abortedOnce ∧
    g.rfld (.pwrGroup (groupOf 0)) 6 6 = 1 ∧ 0 ∉ g.pow.abortedOnce ∧ 1 ∈ s.pow.relocking ∧ 3 ∈ s.pow.aborted ∧ s.modState ≠ 6 := by decide
/-- A free region asked for by a FREE, LOADED and QUIESCED vat; by a RUNNING one; a region of another vat; 33 defects; a pending
retirement. -/
theorem witness_RegionOwnership :
    let s (n : Word64) := vatIn n []
    let added (s : State) (v : VatId) (value : Word64) := (allFin 192).filter (fun r => r.val / 64 = 0 && bitAt value (r.val % 64) && !s.holds v r)
    (s 0).hostReady = true ∧ (s 0).vstate 0 ∈ [0, 1, 4] ∧ (s 4).vstate 0 ∈ [0, 1, 4] ∧
    (∀ r ∈ added (s 0) 0 2, (s 0).regionRetired r = false ∧ (s 0).ownerOf r = none) ∧ (s 2).vstate 0 ∉ [0, 1, 4] ∧
    (s 0).vstate 1 ∈ [0, 1, 4] ∧ 0 ∈ added (s 0) 1 1 ∧ (s 0).ownerOf 0 = some 0 ∧
    33 ≤ (serving [(.pwrRegion 0, 0x424000)]).rfld (.pwrRegion 0) 22 17 ∧ (serving [(.pwrRegion 0, 0x424000)]).regionRetired 0 = false ∧
    2 ≤ (s 0).modState ∧ (s 0).modState ≠ 7 ∧ groupOf 1 = 0 ∧ (serving [(.pwrGroup 0, 0x100)]).rfld (.pwrGroup 0) (7 + 1 % 2) (7 + 1 % 2) = 1 := by
  decide +kernel

/-! ## Streams -/

/-- A vat of one stage that bears KV, with customers and streams, and registers more. -/
def kvStageInfo : StageInfo := { cores := [c0], kvStage := some 0x10000000000 }
def streams (xs : KMap StreamId Stream) (w : Vat → Vat) (rs : KMap Reg Word64) : State :=
  { serving (rs ++ [(.vat 0 .kvConf, 0x40010813201), (.vat 0 .kvSkimbase, 0x2000000000000)]) with
    vats := [(0, w { ingot := some { oneStage with stages := [kvStageInfo], pressCopy := true, vocab := 100 }, streams := xs })] }
/-- Windows of 3 ticks at ticks 2 and 3; the pail in the last stage, with and without commits due, filled in this beat and not; a header. -/
theorem witness_BudgetsAndFills :
    let s (n : Nat) : State := { streams [] (fun w => { w with winLen := 3 }) [(.que 0, 1)] with tickNorth := n }
    let p (x : Pail) := (streams [] (fun w => { w with pails := [(0, x)], winLen := 3 }) []).settleWindows 0
    let h : State := { p { headerWait := true } with vats := [(0, { ingot := some { oneStage with headerAt := some (c0, 0x200000) } })] }
    (s 3).vstate 0 ∈ [2, 3, 4] ∧ windowOver ((s 3).vat 0).winStart ((s 3).vat 0).winLen (s 3).now = true ∧ 0 ∈ (s 3).customersOf 0 ∧
    windowOver ((s 2).vat 0).winStart ((s 2).vat 0).winLen (s 2).now = false ∧ (p {}).vstate 0 = 2 ∧ (p {}).chained 0 = false ∧
    ((p {}).ring 0).length ≠ 0 ∧ pailAt ((p {}).ring 0).length ((p {}).vat 0).edges 0 = 0 ∧ ((p {}).pail 0 0).commitsDue = [] ∧
    ((p {}).pail 0 0).filledAt ≠ some ((p {}).vat 0).edges ∧ ((p { commitsDue := [1] }).pail 0 0).commitsDue ≠ [] ∧
    ((p { filledAt := some 0 }).pail 0 0).filledAt = some ((p {}).vat 0).edges ∧ ((p { headerWait := true }).pail 0 0).headerWait = true ∧
    ((p {}).vat 0).ingot.bind IngotTable.headerAt = none ∧ (h.vat 0).ingot.bind IngotTable.headerAt = some (c0, 0x200000) ∧
    pailAt ((p {}).ring 0).length ((p {}).vat 0).edges 0 ≠ 1 := by decide +kernel
/-- A stream with one draft in a pail: it goes on, it meets its stop token, its token limit, its position limit. -/
def riding : Stream := { phase := .decoding, lc := 9, limit := 20, promptLen := 1, seat := some (0, 0), drafts := [7], stops := [3], maxNew := 10 }
theorem witness_CommitAdvancesStream :
    let b := streams [(4, riding)] (fun w => { w with pails := [(0, { slots := [some 4, none, none, none], commitsDue := [4] })], winLen := 3 }) []
    let s := b.settleWindows 0
    b.chained 0 = false ∧ (serving [(.vat 0 .linkChain, 2)]).chained 0 = true ∧ s.stream 0 4 = some riding ∧ riding.seat = some (0, 0) ∧ riding.target = none ∧ riding.ended = false ∧ s.vstate 0 = 2 ∧
    (4 : StreamId) ∈ (s.pail 0 0).commitsDue ∧ ([7, 8] : List Word32).length = 1 + riding.drafts.length ∧ (s.vat 0).handing = false ∧
    s.mirroring 0 = false ∧ missedLayers riding = [] ∧ ([7, 8] : List Word32).length = ([7] : List Word32).length + 1 ∧
    ([7, 8] : List Word32).all (fun t => !riding.stops.contains t) = true ∧ riding.newTokens + 2 < riding.maxNew ∧ riding.lc + 2 < riding.limit ∧
    riding.atLimit = false ∧ ([7, 3] : List Word32).any (fun t => riding.stops.contains t) = true ∧
    ({ riding with maxNew := 2 } : Stream).maxNew ≤ riding.newTokens + 2 ∧ ({ riding with limit := 11 } : Stream).limit ≤ riding.lc + 2 ∧
    s.stream 0 5 = none := by decide +kernel
/-- A decoding stream idle for the time of SKIM_IDLE, with a slot and with none; one whose copy is under way, whose restore is, whose restore
has lost a slot. -/
theorem witness_SkimAndRestore :
    let idle : Stream := { phase := .decoding, promptLen := 1, lc := 65, limit := 100 }
    let s : State := { streams [(4, idle)] id [] with tickNorth := 2000000 }
    let n : State := { streams [(4, idle)] id [(.vat 0 .kvSkimbase, 0x1000000000000)] with tickNorth := 2000000 }
    let r := streams [(4, { idle with restoring := true, skimSlots := [0] })] id []
    let x := streams [(4, { idle with restoring := true, skimSlots := [0] })] id [(.glbStack 0, 0xFFFFFFFF)]
    s.stream 0 4 = some idle ∧ s.vfld 0 .kvConf 39 28 ≠ 0 ∧ idle.skimAsked = none ∧ idle.seat = none ∧ idle.skimmed = false ∧
    idle.skimming = false ∧ idle.restoring = false ∧ idle.ended = false ∧ s.handedOver 0 idle = true ∧ idle.idleTicks = 0 ∧
    windowOver idle.idleSince (s.idleWin 0) s.now = true ∧ windowOver idle.idleSince (n.idleWin 0) n.now = true ∧
    (65 + 63) / 64 ≤ (s.freeSkimSlots 0).length ∧ (n.freeSkimSlots 0).length < (65 + 63) / 64 ∧ ({ idle with skimming := true } : Stream).skimming = true ∧
    (∀ k ∈ [0], ∀ m ∈ r.kvNumbered 0, r.stackFails (r.skimAddr 0 k m.1) (64 * r.kvHeads 0 * r.recordBytes 0) = false) ∧
    x.mirroring 0 = false ∧ (∃ k ∈ [0], ∃ m ∈ x.kvNumbered 0, x.stackFails (x.skimAddr 0 k m.1) (64 * x.kvHeads 0 * x.recordBytes 0) = true) := by
  decide +kernel
/-- A request that waits for its prefill, and the same one in a pass. -/
def waits : Stream := { promptLen := 5, limit := 10, prompt := [1, 2, 3, 4, 5], stops := [], phase := .awaitPrefill }
def passing : Stream := { waits with phase := .prefilling, chunk := 4 }
/-- One request that waits; a pass under way, whose reads have come and one of whose has not. -/
theorem witness_PrefillAndPrompts :
    let b : State := { streams [(4, waits)] (fun v => { v with copied := [0], winLen := 3 }) [(.glbPress 0, 0x40), (.que 0, 0x81)] with
      custs := [(0, { eff := 0xFFFFFFFF })] }
    let s := b.settleWindows 0
    let p : State := { streams [(4, waits)] (fun v => { v with pass := some [4] }) [] with tickNorth := 1 }
    s.mayPass 0 = true ∧ s.waitingPrefill 0 = [4] ∧ s.stream 0 4 = some waits ∧ (∀ e ∈ (s.vat 0).streams, chunking e.2 = false) ∧
    waits.prefilled = 0 ∧ waits.reserved = 0 ∧ 1 ≤ waits.promptLen ∧ waits.promptLen ≤ s.limitOf 0 waits ∧
    waits.promptLen - 1 ≤ s.vfld 0 .vatPrefill 13 0 ∧ s.findG0 0 none (pagesFor (s.limitOf 0 waits)) = some 0 ∧ s.pressOf 0 0 = true ∧
    (p.settleWindows 0).mayPass 0 = false ∧ (p.vat 0).pass = some [4] ∧ (p.vat 0).passTrips = 0 ∧ ({ passTrips := 1 } : Vat).passTrips ≠ 0 ∧
    (∀ st ∈ ([4] : List StreamId), ∀ x ∈ (p.stream 0 st).toList, x.promptDue = false) := by decide +kernel
/-- A stage whose hand-off is awaited, and whose rewrite is; prompts of one token, good and outside the vocabulary. -/
theorem witness_PrefillAndPrompts_handoff :
    let again : Stream := { passing with rewrites := [0] }
    let s := streams [(4, passing), (5, again)] id [(.meshShare 0 0, 1)]
    let o : Stream := { promptLen := 1, limit := 10, phase := .awaitPrompt, promptDue := true }
    s.stream 0 4 = some passing ∧ s.stream 0 5 = some again ∧ 0 ∈ again.rewrites ∧ 0 ∉ passing.rewrites ∧
    layerIndex (s.ring 0) 0 = some 0 ∧ (s.ring 0)[0]? = some kvStageInfo ∧ kvStageInfo.kvStage.isSome = true ∧ s.vstate 0 = 2 ∧
    s.hasRim 0 = true ∧ (∀ i ∈ s.handoffGroup 0 4, ∀ z ∈ (s.stream 0 i).toList, z.promptDue = false) ∧ passing.ended = false ∧
    passing.firstPass = true ∧ passing.promptDue = false ∧ passing.chunk ≠ 0 ∧ passing.phase ≠ .awaitPrefill ∧
    (∀ x ∈ passing.handoffs, x.1 ≠ 0) ∧ o.promptDue = true ∧ o.promptTrips = 0 ∧ o.ended = false ∧ o.skimAsked = none ∧
    s.host.down (s.portOf o.queue) = false ∧ (s.vat 0).ingot.map IngotTable.vocab = some 100 ∧ ([99] : List Word32).length = o.promptLen ∧
    ([99] : List Word32).all (fun t => t.toNat < 100) = true ∧ ([100] : List Word32).any (fun t => 100 ≤ t.toNat) = true ∧
    o.phase = .awaitPrompt := by decide +kernel

/-- A draft that the head stage confirms: both tokens are taken (R41). -/
theorem test_commit : after (exec (.commitReport 0 4 [7, 8] 0)
    (streams [(4, riding)] (fun w => { w with pails := [(0, { slots := [some 4, none, none, none], commitsDue := [4] })] }) []))
    (fun u => (u.stream 0 4).map (fun x => (x.lc, x.newTokens, x.lastToken))) = some (some (11, 2, 8)) := by decide +kernel

/-! ## Queue pairs and host ports -/

/-- Queue 1, enabled for vat 0 with 16 entries, tail at 3, and a completion queue of 16. -/
def queueRegs : KMap Reg Word64 := [(.que 1, 0x81), (.queSq 1 1, 15), (.queCq 1 1, 0x1000000F)]
/-- A doorbell at and above the size; a pair not enabled; an enabling that is in order and three that are not; a disabling; a held
completion with room and without; windows that are over and not; a port that is up and one that is down. -/
theorem witness_QueueRegistersAndPorts :
    let s := serving queueRegs
    let o (a b c d : Word64) := serving [(.queSq 1 0, a), (.queSq 1 1, b), (.queCq 1 0, c), (.queCq 1 1, d)]
    let x : Stream := { queue := 1 }
    let h (r : KMap Reg Word64) : State :=
      { serving (r ++ queueRegs) with vats := [(0, { streams := [(4, x)] })], queues := [(1, { held := [(some (0, 4), {})] })] }
    let w (n : Nat) (b : Bool) : State := { serving queueRegs with tickNorth := n, queues := [(1, { window := some (0, 2), waiting := b })] }
    let d : State := { serving [] with host := { msixPending := [(.west, 5)] } }
    let a : State := { serving [(.que 1, 0x80)] with vats := [(0, { streams := [(4, x)] })] }
    a.queEn 1 = false ∧ a.activeOf 1 ≠ 0 ∧ a.hostReady = true ∧ s.queEn 1 = true ∧
    (15 : Word32).toNat ≤ s.rfld (.queSq 1 1) 15 0 ∧ s.rfld (.queSq 1 1) 15 0 < (16 : Word32).toNat ∧ (s.qp 1).held = [] ∧
    (15 : Word32).toNat ≤ s.rfld (.queCq 1 1) 15 0 ∧ s.rfld (.queCq 1 1) 15 0 < (16 : Word32).toNat ∧ s.queEn 0 = false ∧
    (o 0 15 0 15).hostReady = true ∧ bitAt (1 : Word64) 0 = true ∧ (o 0 15 0 15).queEn 1 = false ∧ (o 0 15 0 15).activeOf 1 = 0 ∧
    (o 0 15 0 15).rfld (.queSq 1 0) 11 0 = 0 ∧ (o 0 15 0 15).rfld (.queCq 1 0) 11 0 = 0 ∧ 15 ≤ (o 0 15 0 15).rfld (.queSq 1 1) 15 0 ∧
    15 ≤ (o 0 15 0 15).rfld (.queCq 1 1) 15 0 ∧ (o 8 15 0 15).rfld (.queSq 1 0) 11 0 ≠ 0 ∧ (o 0 15 8 15).rfld (.queCq 1 0) 11 0 ≠ 0 ∧
    (o 0 14 0 15).rfld (.queSq 1 1) 15 0 < 15 ∧ (o 0 15 0 14).rfld (.queCq 1 1) 15 0 < 15 ∧ bitAt (0x80 : Word64) 0 = false ∧
    fld (0x80 : Word64) 6 1 = s.rfld (.que 1) 6 1 ∧ fld (0x80 : Word64) 26 15 = s.rfld (.que 1) 26 15 ∧
    (h []).stream 0 4 = some x ∧ ((h []).qp 1).held = [(some (0, 4), {})] ∧ (h []).cqBlocked 1 = false ∧
    (h [(.queCq 1 1, 0x0000000F1000000F)]).cqBlocked 1 = true ∧ ((w 2 true).qp 1).window = some (0, 2) ∧ windowOver 0 2 (w 2 true).now = true ∧
    ((w 2 true).qp 1).waiting = true ∧ ((w 2 false).qp 1).waiting = false ∧ windowOver 0 2 (w 1 true).now = false ∧
    (w 2 true).host.down ((w 2 true).portOf 1) = false ∧ d.host.down .west = true ∧ 2 ≤ d.modState ∧ d.modState ≠ 7 := by decide +kernel
/-- A REQUEST of one token, CMD_ID 7, TOP_K 1, INV_TEMP 0, TOP_P 1.0, all else 0 but the variant, which is the base weights. -/
def request : List Byte :=
  [1, 0, 7, 0, 0xFF, 0xFF] ++ List.replicate 10 0 ++ [1, 0, 0, 0] ++ List.replicate 8 0 ++ [1, 0] ++ List.replicate 6 0 ++ [0, 0, 0x80, 0x3F]
    ++ List.replicate 24 0
/-- A control entry for the request with CMD_ID 9. -/
def control (op zero : Byte) : List Byte := [op, zero, 7, 0, 9, 0] ++ List.replicate 58 0
/-- A queue with one fetched entry, and a stream with CMD_ID 9. -/
def fetchedOne (e : List Byte) (xs : KMap StreamId Stream) : State :=
  { serving queueRegs with vats := [(0, { streams := xs })], queues := [(1, { fetched := [{ bytes := e, tick := 0 }] })] }
theorem witness_QueueEntries :
    let s : State := { serving queueRegs with queues := [(1, { sqTail := 3 })] }
    let x : Stream := { queue := 1, cmdId := 9 }
    let r := fetchedOne request []
    let b := fetchedOne (request.set 30 1) []
    s.mayFetch 1 = true ∧ request.length = 64 ∧ (serving queueRegs).mayFetch 1 = false ∧
    (r.qp 1).fetched = [{ bytes := request, tick := 0 }] ∧ r.ladleActs 1 = true ∧ leAt request 0 1 = 1 ∧ leAt request 1 1 = 0 ∧
    r.requestFault (r.queVat 1) 1 request = none ∧ (none : Option StreamId).or ((r.takeFetched 1).freeStreamId 0) = some 0 ∧ b.requestFault 0 1 (request.set 30 1) = some .badentry ∧
    leAt (request.set 30 1) 30 2 ≠ 0 ∧ leAt (control 2 0) 0 1 = 2 ∧ controlZero (control 2 1) = false ∧ controlZero (control 2 0) = true ∧
    (fetchedOne (control 2 0) []).streamByCmd 0 1 9 = none ∧ (fetchedOne (control 2 0) [(4, x)]).streamByCmd 0 1 9 = some (4, x) ∧
    leAt (control 3 0) 0 1 = 3 ∧ x.skimAsked = none ∧ x.skimmed = false ∧ BitVec.ofNat 16 (leAt (control 2 0) 4 2) = 9 := by decide +kernel

theorem test_request : after (exec (.request 1) (fetchedOne request []))
    (fun u => (u.stream 0 0).map (fun x => (x.cmdId, x.promptLen, x.phase, x.limit))) = some (some (7, 1, .awaitPrompt, 65536)) := by decide +kernel
theorem test_doorbell_above : after (exec (.sqDoorbell 1 true 16) (serving queueRegs)) (fun u => (u.rfld (.queSq 1 1) 17 17, (u.qp 1).sqTail)) =
    some (1, 0) := by decide +kernel

/-! ## Register writes -/

theorem witness_RegisterMapAndWrites : (serving []).barUp = true ∧ State.reset.barUp = false ∧ regAt (4 / 8 * 8) = some .glbId ∧
    regAt 0x18 = none ∧ (16 : Nat) ≠ 32 ∧ 4 % 8 ≠ 0 ∧ 2 % 4 ≠ 0 := by decide +kernel
/-- Limits at 1, 65,536, 0 and 65,537; a vat that runs; groups at 1, at 0 and above the ingot's; presses; a 16th
and a 17th weight; thresholds 4 and 3 apart. -/
theorem witness_CheckedRegisterWrites :
    let s := vatIn 1 []
    let g : State := { s with vats := [(0, { ingot := some oneStage })] }
    let p := serving [(.glbPress 3, 0x40), (.vat 1 .vatPrefill, 0x404B0)]
    let q := serving [(.linkShare 0 1, 0x0101010101010101), (.linkShare 0 2, 0x0101010101010101)]
    s.hostReady = true ∧ s.issuesNothing 0 = true ∧ fld (1 : Word64) 16 0 = 1 ∧ fld (0x10000 : Word64) 16 0 = 65536 ∧ fld (0 : Word64) 16 0 = 0 ∧
    65536 < fld (0x10001 : Word64) 16 0 ∧
    fld (0x400000000 : Word64) 49 34 ≠ 0 ∧ (serving []).issuesNothing 0 = false ∧ fld (1 : Word64) 13 0 ≠ 0 ∧ g.loadedIngot 0 = some oneStage ∧
    fld (1200 : Word64) 13 0 ≤ oneStage.maxGroup ∧ oneStage.maxGroup < fld (1201 : Word64) 13 0 ∧ fld (0 : Word64) 49 34 = 0 ∧ s.barUp = true ∧
    s.rfld (.glbPress 0) 6 6 = 0 ∧ bitAt (0x41 : Word64) 6 = true ∧
    (∀ w : VatId, w.val = fld (0x41 : Word64) 5 0 → p.vfld w .vatPrefill 18 18 = 1 ∧ (p.vat w).pass = none) ∧ p.rfld (.glbPress 3) 6 6 = 1 ∧
    (0 : VatId).val = p.rfld (.glbPress 3) 5 0 ∧ p.vfld 0 .vatPrefill 18 18 = 0 ∧ fld (0 : Word64) 6 0 ≠ p.rfld (.glbPress 3) 6 0 ∧
    q.shareOpen (.link 0) = true ∧ q.weightsWith (.link 0) 0 0 = 16 ∧ q.seamShareBad (.link 0) 0 0 allLanes = false ∧
    q.weightsWith (.link 0) 0 1 = 17 ∧ 0xA0 ≤ fld (0x9CA0 : Word64) 7 0 ∧ fld (0x9CA0 : Word64) 15 8 + 4 ≤ min (fld (0x9CA0 : Word64) 7 0) 0xBE ∧
    min (fld (0x9DA0 : Word64) 7 0) 0xBE < fld (0x9DA0 : Word64) 15 8 + 4 := by decide +kernel

/-- A counter of the north half whose rectangle is region 0, given a place in the north and in the south; a rectangle of region 0 and one that
reaches into region 1, which the vat does not hold; a variant's image in order, one for a vat with no ingot, an address that is no granule, and
a variant with a user. -/
theorem witness_CheckedRegisterWrites_fields :
    let c := vatIn 1 [(.vat 0 (.syncMap 5), 1), (.vat 0 (.ctr 5 1), 0x10F8003C00)]
    let placed (x : Word64) := (c.plainWrite (.vat 0 (.syncMap 5)) x allLanes).syncMap 0 5
    let g : State := { vatIn 1 [] with vats := [(0, { ingot := some oneStage })] }
    let v := serving [(.ladleVariant 2 0, 1), (.ladleVariant 2 1, 1)]
    let w (x : Word64) := g.merged (.ladleVariant 0 0) x allLanes
    c.hostReady = true ∧ c.issuesNothing 0 = true ∧ placed 1 = some (.north, 0) ∧ placed 3 = some (.south, 0) ∧
    bitAt (c.vreg 0 (.ctr 5 1)) 36 = true ∧ rectInHalf (c.vreg 0 (.ctr 5 1)) (some .north) = true ∧
    rectInHalf (c.vreg 0 (.ctr 5 1)) (some .south) = false ∧ c.sameEntry 0 5 = 5 ∧
    c.rectGood 0 5 (c.merged (.vat 0 (.ctr 5 1)) 0x10F8003C00 allLanes) = true ∧
    c.rectGood 0 5 (c.merged (.vat 0 (.ctr 5 1)) 0x10F8003E00 allLanes) = false ∧
    g.hostReady = true ∧ g.rfld (.ladleVariant 0 1) 10 0 = 0 ∧ bitAt (0x80001 : Word64) 0 = true ∧ bitAt (0 : Word64) 0 = false ∧
    fld (0x80001 : Word64) 54 7 % 4096 = 0 ∧ fld (0x80001 : Word64) 54 7 < 1152000000000 ∧ g.variantGood (w 0x80001) = true ∧
    fld (0x80003 : Word64) 54 0 ≠ g.rfld (.ladleVariant 0 0) 54 0 ∧ g.variantGood (w 0x80003) = false ∧ fld (0x81 : Word64) 54 7 % 4096 ≠ 0 ∧
    v.rfld (.ladleVariant 2 1) 10 0 ≠ 0 ∧ v.rfld (.ladleVariant 2 0) 0 0 = 1 ∧ fld (0x80001 : Word64) 54 7 ≠ v.rfld (.ladleVariant 2 0) 54 7 := by
  decide +kernel

/-- The first byte of GLB_IRQ's vector, its W1C bit written 1, its RO bits left. -/
theorem test_registerWrite : after (exec (.registerWrite (regOff .glbIrq) 64 0x10003) (serving [(.glbIrq, 0x10000)]))
    (fun u => u.getReg .glbIrq) = some 3 := by decide +kernel

/-! ## Twins -/

/-- Registers of a pair: this module is device 2, its twin device 3 at link 0. -/
def twinRegs (state : Word64) (owner : Word64) : KMap Reg Word64 :=
  [(.twinStatus, state), (.twinOwner, owner), (.twinCtrl, 0x10003), (.linkCtrl 0, 5), (.linkStatus 0, 0x61)]
/-- A mirrored stream, its record with two KV records, and a COMMIT that covers them. -/
def mirrorInfo4 : MirrorStream :=
  { stream := 4, cmdId := 7, maxNew := 1, stops := [], queue := 1, cust := 0, limit := 10, variant := 0xFFFF, topK := 1, invTemp := 0,
    topP := 0x3F800000, seed := 0 }
def mirrorRec4 : MirrorRec := { info := mirrorInfo4, kv := [((0, 0, 0), []), ((0, 1, 0), [])] }
def mirrorCommit4 : MirrorCommit := { stream := 4, lc := 3, tokens := [1], tick := 0, kvCount := 2 }
/-- A COMMIT not yet acknowledged, with its completion. -/
def unacked4 : Unacked := { queue := 1, who := some (0, 4), lc := 3, acked := false, bytes := 66, comp := some {} }
/-- A standby vat with a record, a commit that may be applied and one that waits; a completion that waits for its acknowledgement; pairs to be
made and refused; the end of synchronising, and a stream of it not yet acknowledged. -/
theorem witness_TwinPairActs :
    let s : State := { serving (twinRegs 2 0) with vats := [(0, { streams := [(4, {})] })], twin := { recs := [((0, 4), mirrorRec4)] } }
    let u : State := { serving (twinRegs 2 1 ++ queueRegs) with twin := { unacked := [unacked4] } }
    let p := serving (twinRegs 0 0)
    let q : State := { serving (twinRegs 1 1) with twin := { unacked := [{ unacked4 with comp := none }] } }
    s.standby 0 = true ∧ s.mrec 0 mirrorCommit4.stream = some mirrorRec4 ∧ mirrorRec4.waiting = [] ∧
    mirrorCommit4.kvCount ≤ mirrorRec4.kv.length ∧ mirrorRec4.kv.length < ({ mirrorCommit4 with kvCount := 3 } : MirrorCommit).kvCount ∧
    s.stream 0 4 = some {} ∧ u.twin.unacked = [unacked4] ∧ unacked4.acked = false ∧ unacked4.who = some (0, 4) ∧ unacked4.comp = some {} ∧
    (u.vat 0).handing = false ∧ u.cqBlocked unacked4.queue = false ∧ (u.qp 1).held = [] ∧ p.mayPair = true ∧ p.twinState = 0 ∧
    p.sameVats [{ vat := 0, regions := [0] }] = true ∧ p.sameVats [] = false ∧ p.anyChained = false ∧
    (serving ((.vat 0 .linkChain, 2) :: twinRegs 0 0)).anyChained = true ∧ (serving (twinRegs 1 1)).twinState = 1 ∧
    (serving (twinRegs 1 1)).twin.unacked = [] ∧ q.twinState = 1 ∧ (∃ a ∈ q.twin.unacked, a.comp = none ∧ a.acked = false) := by decide +kernel
/-- A vat whose handover is complete, and one whose COMMIT is not yet acknowledged; a FAIL, a HANDOVER, a TAKEOVER in each state; a vat that starts
here at a tick; silence with vats of its own and with none. -/
theorem witness_TwinPairActs_takeover :
    let h : State := { serving (twinRegs 2 1) with vats := [(0, { handing := true })] }
    let b : State := { serving ((.twinCmdMask, 1) :: twinRegs 2 1) with twin := { unacked := [unacked4], cmd := 1, cmdDue := true } }
    let t (n : Word64) : State := { vatIn 1 ((.twinCmdMask, 1) :: twinRegs n 0) with twin := { cmd := 2, cmdDue := true } }
    let k : State := { vatIn 4 (twinRegs 2 0) with twin := { taking := [0] } }
    (h.vat 0).handing = true ∧ h.twin.cmdDue = false ∧ h.twin.unacked = [] ∧ h.ownsVat 0 = true ∧ h.vstate 0 = 2 ∧ h.twinLinks ≠ [] ∧
    b.twin.cmdDue = true ∧ b.twin.cmd = 1 ∧ bitAt (b.getReg .twinCmdMask) 0 = true ∧ b.mirroring 0 = true ∧ b.vstate 0 ≠ 5 ∧
    unacked4 ∈ b.twin.unacked ∧ unacked4.acked = false ∧ unacked4.vat = some 0 ∧
    (∀ n ∈ [1, 2, 3, 4], (t (BitVec.ofNat 64 n)).ownsVat 0 = false ∧ ((t (BitVec.ofNat 64 n)).vat 0).unsynced = false ∧
      (t (BitVec.ofNat 64 n)).vstate 0 = 1 ∧ (t (BitVec.ofNat 64 n)).twinState = n ∧ (t (BitVec.ofNat 64 n)).twin.cmdDue = true ∧
      (t (BitVec.ofNat 64 n)).twin.cmd = 2 ∧ (t (BitVec.ofNat 64 n)).getReg .twinCmdMask = 1) ∧ bitAt (1 : Word64) 0 = true ∧
    k.runs .north = true ∧ k.rimHalf = .north ∧ k.staged = [] ∧ k.meshStaged = [] ∧ k.twin.taking = [0] ∧
    (t 2).getReg .twinOwner = 0 ∧ h.twinState = 2 ∧ h.getReg .twinOwner ≠ 0 ∧ (t 2).twin.failSeen = false ∧ h.twin.failSeen = false := by
  decide +kernel

/-! ## Management and power -/

/-- A module in some state of R336, on input within range. -/
def module (n : Word64) (rs : KMap Reg Word64 := []) : State := { regs := rs ++ [(.pwrState, 0x20 + n)] }
theorem witness_ManagementCommands : (module 5).wardenAnswers = true ∧ regAt (regOff .pwrState) = some .pwrState ∧ (module 5).resetFree = true ∧
    (0 : Byte) ≠ 0xA5 ∧ (module 5).inService = true ∧ State.reset.wardenAnswers = false ∧ (module 7).modState = 7 ∧ (module 0).modState = 0 ∧
    (module 1).modState = 1 ∧ (module 6).modState ≠ 0 ∧ (module 6).modState ≠ 1 ∧ (module 6).modState ≠ 7 := by decide +kernel
/-- Each state that a phase starts from; a quenched module; a cold and a warm TEST, before and after the tests. -/
theorem witness_StartSequence :
    (∀ n : Fin 8, (module (BitVec.ofNat 64 n)).modState = n.val) ∧ (module 0).rfld .thermStatus 24 24 = 0 ∧
    (module 0 [(.thermStatus, 0x1000000)]).rfld .thermStatus 24 24 = 1 ∧ (module 4).pow.tested = false ∧
    (module 4 [(.pwrState, 0x2C)]).rfld .pwrState 3 3 = 1 ∧ ({ tested := true } : Power).tested = true ∧
    (module 3).regionRetired 191 = false ∧ (module 4).ownerOf 191 = none := by decide +kernel
/-- Temperatures at both ends of the quench's range and above it, coolant above 40 °C, 45 °C and 50 °C, an overvoltage above 65 V. -/
theorem witness_PowerLossAndReset :
    (module 5).inService = true ∧ fld (0xA5 : Word64) 7 0 = 0xA5 ∧ (module 6).inService = false ∧ fld (0xA4 : Word64) 7 0 ≠ 0xA5 ∧
    (module 6).modState = 6 ∧ (module 6).rfld .pwrState 7 7 = 0 ∧ (module 5).rfld .pwrState 6 6 = 0 ∧ causeRated .undervoltage = true ∧
    causeRated (.overvoltage 65000) = true ∧ (module 5).modState ≠ 0 ∧ (module 5).resetFree = true ∧ (module 7).resetFree = true ∧
    2 ≤ (module 5).modState ∧ (module 5).modState ≠ 7 ∧ 220 ≤ 250 ∧ 80 < 81 ∧ 90 < 100 ∧ 250 < 251 ∧ 65000 < 65001 := by decide +kernel

/-- SM_STATE answers the state, the highest TEMP and its region. -/
theorem test_smState : after (exec .smState (module 5 [(.thermRegion 7, 0x90)])) (fun u => u.smbus) = some [5, 0x90, 7] := by decide +kernel
theorem test_check_fails : after (exec (.check true false true) (module 1)) (fun u => (u.modState, u.rfld .pwrState 10 8)) = some (7, 2) := by
  decide +kernel
theorem test_quench_beyond : (match exec (.quench 0 251) (module 5) with | .fault .beyondRatings => true | _ => false) = true := by decide

/-! ## Thermal control and hardware faults -/

/-- The one region that is on stands at THROTTLE_AT; a window under way; a vat throttled for 100 windows, one calm for 1,000, one that may not be stretched. -/
theorem witness_ThermalControl :
    let s := serving [(.thermRegion 0, 0xFBE00)]
    let v : State := { serving [(.thermVat 0, 0x1D)] with therm := { hotWindows := [(0, 100)], calmWindows := [(0, 1000)] } }
    2 ≤ s.modState ∧ s.modState ≠ 7 ∧ s.inWindow = false ∧
    ({ s with therm := { window := some (0, 1000) } } : State).inWindow = true ∧ s.hottest = some 0 ∧ s.rfld .thermCtrl 7 0 ≤ s.predictOf 0 ∧ v.holds 0 0 = true ∧
    100 ≤ kget 0 v.therm.hotWindows 0 ∧ v.rfld (.thermVat 0) 0 0 = 1 ∧ v.rfld (.thermVat 0) 4 1 < 15 ∧ v.rfld (.thermVat 0) 4 1 ≠ 0 ∧
    1000 ≤ kget 0 v.therm.calmWindows 0 ∧ s.rfld (.thermVat 0) 0 0 = 0 := by decide +kernel
theorem witness_HardwareFaults :
    let s := serving []
    let d : State := { s with runNorth := false, pow := { halvesDown := [.north], restarting := [1] } }
    let e : State := { s with stackLog := [(31, 0, 0, 100), (31, 4, 0, 100), (31, 8, 0, 100)] }
    s.runs .north = true ∧ s.inHalf 0 .north = true ∧ .north ∈ d.pow.halvesDown ∧ .north ∉ d.pow.halvesLeftOff ∧ d.barUp = true ∧
    d.regionRetired 0 = false ∧ d.ownerOf 0 = some 0 ∧ s.rfld (.pwrGroup 0) 0 0 = 0 ∧ (serving [(.pwrGroup 0, 2)]).rfld (.pwrGroup 0) 1 1 = 1 ∧
    0 ∉ s.pow.restarting ∧ s.pow.supplyTicks = [] ∧ 1 ∈ d.pow.restarting ∧ s.regionOn 0 = true ∧ s.rfld (.pwrGroup (groupOf 0)) 3 3 = 0 ∧
    (∀ v, s.ownerOf 0 = some v → s.mirroring v = false) ∧ 25 < 26 ∧ s.rfld (.pwrGroup (groupOf 0)) 5 5 = 0 ∧
    s.threeErrors 0 31 = false ∧ e.threeErrors 0 31 = true ∧ e.barUp = true ∧ e.rfld (.glbStack 0) 31 31 = 0 ∧
    s.rfld (.glbStack 0) 31 31 = 0 ∧ (∀ i : Fin 32, i ≠ 31 → (serving [(.glbStack 0, 0x7FFFFFFF)]).rfld (.glbStack 0) i i = 1) := by decide +kernel

/-! ## Device links -/

/-- Link 0 is up between this device, 2, and device 3. -/
def linked (k : Link) (rs : KMap Reg Word64 := []) : State :=
  { serving (rs ++ [(.linkId, 0x10002), (.linkCtrl 0, 4), (.linkStatus 0, 0x61)]) with links := [(0, k)] }
/-- A packet of one byte, and a frame of 32 bytes. -/
def short : Packet := { ty := 1, length := 1 }
def frame : List Byte := List.replicate 32 5
/-- A link that is down and one that is up; roles that pair and do not; lanes, one with 16 and one with 17 bad codewords; a replay asked for; a
link that has failed, with another to its peer. -/
theorem witness_LinkCellsAndLanes :
    let s := linked {}
    let d := linked {} [(.linkStatus 0, 0)]
    let f := linked { fails := 4 } [(.linkCtrl 1, 4), (.linkStatus 1, 0x61)]
    d.barUp = true ∧ d.linkEn 0 = true ∧ d.linkRetiredBit 0 = false ∧ d.linkUp 0 = false ∧ d.rfld .linkId 16 16 = 1 ∧
    rolesPair (d.role 0) (0 : BitVec 2).toNat = true ∧ rolesPair (d.role 0) (1 : BitVec 2).toNat = false ∧ s.linkUp 0 = true ∧
    s.linkRetiredBit 0 = false ∧ ((linked { replay := [short] }).link 0).replay = short :: [] ∧ short.reroute = false ∧
    ((linked { replay := [short] }).link 0).replayReq = none ∧ ((linked { replayReq := some 0, fails := 3 }).link 0).replayReq = some 0 ∧ 3 < 4 ∧
    (15 : Fin 18).val < 16 ∧ (15 : Fin 18) ∉ (s.link 0).lanesDead ∧ laneRetires (.codewords 15 17) = true ∧ laneRetires (.codewords 15 16) = false ∧
    ((linked { lanesShort := 1 }).link 0).idleSpares = [16, 17] ∧ ((linked { lanesShort := 1 }).link 0).lanesShort ≠ 0 ∧
    (f.link 0).failed = true ∧ f.detour 0 = some 1 ∧ (s.link 0).failed = false := by decide +kernel
/-- Cells of each kind; packets of 0, 1, 4,096 and 4,097 bytes; a body expected, one behind the number expected and one ahead of it. -/
theorem witness_LinkCellsAndLanes_cells :
    let o (p : Packet) (n : BitVec 16) : Link := (linked { opened := some p, lseqIn := n }).link 0
    frame.length = 32 ∧ cellOf (cellBytes 0 false frame) = .idle ∧ cellOf (cellBytes 3 false frame) = .control ∧
    cellOf (cellBytes 1 false (headerBytes short)) = .head false short ∧ cellOf (cellBytes 2 true frame) = .payload true frame ∧
    cellOf (List.replicate 36 1) = .damaged ∧ ((linked {}).link 0).askReplay = false ∧ ((linked {}).link 0).opened = none ∧
    1 ≤ short.length.toNat ∧ ({ short with length := 4096 } : Packet).length.toNat ≤ 4096 ∧ ({ short with length := 0 } : Packet).length.toNat = 0 ∧
    4096 < ({ short with length := 4097 } : Packet).length.toNat ∧ (o short 0).opened = some short ∧ (o short 0).body = [] ∧
    short.length.toNat ≤ 32 ∧ short.reroute = false ∧ short.ty = 1 ∧ (o short 0).askReplay = false ∧ (o short 0).rxFrames + 2 ≤ 2048 ∧
    short.lseq = (o short 0).lseqIn ∧ 2 ^ 15 ≤ (short.lseq - (o short 1).lseqIn).toNat ∧
    ({ short with lseq := 1 } : Packet).lseq ≠ (o short 0).lseqIn ∧
    (({ short with lseq := 1 } : Packet).lseq - (o short 0).lseqIn).toNat < 2 ^ 15 := by decide +kernel
/-- The peer that the links' requests come from. -/
def granted : KMap Reg Word64 := [(.vat 0 (.linkPeer 0), 0x1C00003)]
/-- A write of one byte, a read of eight, and a descriptor that awaits an answer. -/
def writePacket : Packet := { ty := 1, srcDev := 3, dstDev := 2, addr := 0x8000000000000000, data := [1], last := true }
def readPacket : Packet := { ty := 2, srcDev := 3, dstDev := 2, addr := 0x8000000000000000, data := [8, 0, 0, 0] }
def asking : Desc := { src := 3, dst := 0x2001000, length := 8, tag := some 5, ptag := 7, statusAddr := 0x200300, window := 64 }
/-- A write that is granted, one that is not and one whose region is off; a read; a remote read that is answered, its packet the last one and
not, and a late answer; a window that is over and one that is not. -/
theorem witness_LinkPackets :
    let s := linked { rx := [writePacket] } granted
    let x := linked { rx := [writePacket] } ((.pwrRegion 0, 0) :: granted)
    let q : State := { linked {} granted with cores := [(c0, { dmaActive := [asking] })] }
    let r (ty : BitVec 8) (last : Bool) : Packet := { ty := ty, dstDev := 2, tag := 7, last := last }
    (s.link 0).rx = writePacket :: [] ∧ writePacket.dstDev = s.deviceId ∧ s.memOk = true ∧ s.remoteFault writePacket true 1 = none ∧
    bitAt writePacket.addr 20 = false ∧ core3 writePacket.addr = some c0 ∧ s.regionOn (regionOf c0) = true ∧
    (s.core c0).inSpm (addr3 writePacket.addr) 1 = true ∧ writePacket.signal = false ∧ x.remoteFault writePacket true 1 = none ∧
    x.targetOff writePacket.addr = true ∧ (linked { rx := [writePacket] }).remoteFault writePacket true 1 = some .protect ∧
    leAt readPacket.data 0 4 ≠ 0 ∧ s.remoteFault readPacket false 8 = none ∧ s.targetOff readPacket.addr = false ∧
    s.remoteSource readPacket.addr 8 = (List.replicate 8 0, true) ∧ q.asker (r 3 true) = some (c0, 0, asking) ∧
    q.asker (r 3 false) = some (c0, 0, asking) ∧ (r 3 true).status = 0 ∧ kindOf asking.src = 3 ∧ kindOf asking.dst = 0 ∧
    kindOf ({ asking with src := 0, dst := 3 } : Desc).dst = 3 ∧ q.answerHeld c0 asking 0 = false ∧ s.asker (r 4 true) = none ∧
    (q.core c0).dmaActive[0]? = some asking ∧ asking.result = none ∧ canTimeOut asking = true ∧ asking.signal = false ∧ asking.statusAddr ≠ 0 ∧
    q.timedOut c0 asking = false ∧ ({ q with tickNorth := 64 } : State).timedOut c0 asking = true := by decide +kernel
/-- A packet for device 9 goes by the link that its flow has taken. -/
theorem witness_LinkPackets_forward :
    let p : Packet := { ty := 1, srcDev := 3, dstDev := 9 }
    let s : State := { linked {} [(.linkRoute 0 0, 0x100090009), (.linkRoute 0 1, 1)] with flows := [((3, 0, 9, 0), 0)] }
    p.dstDev ≠ s.deviceId ∧ p.ty ≠ 7 ∧ s.routeOf p = some 0 := by decide +kernel

/-! ## Loading -/

/-- An ingot for region 0, hallmarked. -/
def ingot : IngotTable := { sizes := sizeValues, exacts := exactValues, regions := [0], hallmarked := true }
/-- A table in order, one of another major version and one without a hallmark; a segment in the placement and an item outside it; a vat whose
segments are in, one of whose weight boundaries lies above its KV lines and one of whose do not. -/
theorem witness_LoadingAnIngot :
    let s := vatIn 1 []
    let l : State := { vatIn 0 [] with vats := [(0, { ingot := some ingot })] }
    let d (n : Word64) : State := { vatIn n [] with vats := [(0, { ingot := some ingot, landed := [0] })] }
    let high : IngotTable := { ingot with kvConf := 1, stages := [{ cores := [c0], kvStage := some 0x10000000 }] }
    s.modState = 5 ∧ s.vstate 0 = 1 ∧ (vatIn 0 []).vstate 0 = 0 ∧ ingot.hallmarked = true ∧ versionGood ingot = true ∧
    s.placementGood 0 (movedTable ingot) = true ∧ layoutGood (movedTable ingot) = true ∧ s.rfld .assayPolicy 0 0 = 0 ∧
    versionFault { ingot with major := 2 } = some .major ∧ s.placementFault 0 { ingot with regions := [1] } = some (.region 1) ∧
    (serving [(.assayPolicy, 1)]).rfld .assayPolicy 0 0 = 1 ∧ (l.vat 0).ingot = some ingot ∧ (l.vat 0).placed = false ∧ 0 < ingot.segments ∧
    movedItem ingot (.imem c0 2047 1) = .imem c0 2047 1 ∧ l.loaderReach 0 ingot (regionOf c0) = true ∧
    movedItem ingot (.imem ⟨31, 0⟩ 2047 1) = .imem ⟨31, 0⟩ 2047 1 ∧ l.loaderReach 0 ingot (regionOf ⟨31, 0⟩) = false ∧
    (l.loadItems 0 ingot 0 0 [.imem c0 2047 1]).2 = none ∧ (∀ i, i < ingot.segments → i ∈ ((d 0).vat 0).landed) ∧ (d 0).vstate 0 = 0 ∧
    (d 4).vstate 0 = 4 ∧ (d 0).finalFault ingot = none ∧ (withCore { wb := 1 } []).finalFault high = some (.boundary c0) ∧
    (∀ i, i < ingot.segments → i ∉ (l.vat 0).landed) := by decide +kernel

/-! ## The whole machine -/

theorem witness_StepKeepsMemoryCanonical : ({ pending := [.ident] } : State).memOk = true ∧
    after (step { pending := [.ident] }) (fun _ => true) = some true := by decide
theorem test_beyond_queue : after (step { pending := [.ident, .smState] }) (fun u => u.pending) = some [.smState] := by decide

end Sys2Proof.Tests
end

section
/-! PROOFS. The order in which issue faults are reported (R198), and what a thread's fault leaves of its core (R199). -/

namespace Sys2Proof.Machine

/-! ## The first fault of a check list (R198) -/

/-- The statuses that issue faults report, in the order of R198. -/
def faultPrecedence : List Status := [.illegal, .format, .counter, .empty, .oversize, .address, .protect]

/-- The order of R198 is that of rising status codes, by which firstFault chooses. -/
theorem faultPrecedence_codes_rise : faultPrecedence.Pairwise (fun x y => statusCode x < statusCode y) := by decide

/-- Where nothing fails behind it, the front check alone says what is reported. -/
theorem firstFault_cons_of_none {cs : List (Bool × Status)} (b : Bool) (st : Status) (h : firstFault cs = none) :
    firstFault ((b, st) :: cs) = if b then some st else none := by rw [firstFault, h]

/-- Against a fault behind it, a failed front check is reported unless its code is greater. -/
theorem firstFault_cons_of_some {cs : List (Bool × Status)} (b : Bool) (st : Status) {x : Status} (h : firstFault cs = some x) :
    firstFault ((b, st) :: cs) = if b = true ∧ statusCode st ≤ statusCode x then some st else some x := by
  simp [firstFault, h]

theorem firstFault_eq_none_iff (cs : List (Bool × Status)) : firstFault cs = none ↔ ∀ p ∈ cs, p.1 = false := by
  induction cs with
  | nil => exact iff_of_true rfl (by simp)
  | cons p cs ih =>
    obtain ⟨b, st⟩ := p
    rw [List.forall_mem_cons, ← ih]
    cases hf : firstFault cs with
    | none => simp [firstFault_cons_of_none b st hf]
    | some x => rw [firstFault_cons_of_some b st hf]; split <;> simp

/-- A check that passes does not change the fault reported. -/
theorem firstFault_append_passed (cs : List (Bool × Status)) (st : Status) : firstFault (cs ++ [(false, st)]) = firstFault cs := by
  induction cs with
  | nil => rfl
  | cons p cs ih => simp [firstFault, ih]

/-- The fault reported is that of a failed check, and no failed check has a lower code. -/
theorem firstFault_least {cs : List (Bool × Status)} {x : Status} (h : firstFault cs = some x) :
    (true, x) ∈ cs ∧ ∀ y, (true, y) ∈ cs → statusCode x ≤ statusCode y := by
  induction cs generalizing x with
  | nil => cases h
  | cons p cs ih =>
    obtain ⟨b, st⟩ := p
    cases hf : firstFault cs with
    | none =>
      have hpassed := (firstFault_eq_none_iff cs).mp hf
      obtain ⟨rfl, rfl⟩ : b = true ∧ st = x := by simpa [firstFault_cons_of_none b st hf] using h
      refine ⟨List.mem_cons_self, fun y hy => ?_⟩
      obtain hy | hy := List.mem_cons.mp hy
      · cases hy; exact le_rfl
      · cases hpassed _ hy
    | some z =>
      obtain ⟨hz, hmin⟩ := ih hf
      rw [firstFault_cons_of_some b st hf] at h
      split at h
      case isTrue hfront =>
        obtain ⟨rfl, hle⟩ := hfront
        cases h
        refine ⟨List.mem_cons_self, fun y hy => ?_⟩
        obtain hy | hy := List.mem_cons.mp hy
        · cases hy; exact le_rfl
        · exact hle.trans (hmin y hy)
      case isFalse hfront =>
        cases h
        refine ⟨List.mem_cons_of_mem _ hz, fun y hy => ?_⟩
        obtain hy | hy := List.mem_cons.mp hy
        · cases hy; exact (Nat.le_total _ _).resolve_right fun hle => hfront ⟨rfl, hle⟩
        · exact hmin y hy

/-- The fault reported is the first of R198's order that a failed check names. -/
theorem firstFault_of_find?_precedence {cs : List (Bool × Status)} {st : Status} (hall : ∀ p ∈ cs, p.2 ∈ faultPrecedence)
    (hst : faultPrecedence.find? (fun x => decide ((true, x) ∈ cs)) = some st) : firstFault cs = some st := by
  obtain ⟨hmem, before, after, horder, hbefore⟩ := List.find?_eq_some_iff_append.mp hst
  have hfails : (true, st) ∈ cs := of_decide_eq_true hmem
  cases hf : firstFault cs with
  | none => cases (firstFault_eq_none_iff cs).mp hf _ hfails
  | some x =>
    obtain ⟨hx, hmin⟩ := firstFault_least hf
    have hrise := faultPrecedence_codes_rise
    have hxo := hall _ hx
    rw [horder] at hrise hxo
    obtain hxb | hxa := List.mem_append.mp hxo
    · exact absurd hx (by simpa using hbefore x hxb)
    · obtain rfl | hxa := List.mem_cons.mp hxa
      · rfl
      · have hlt := List.rel_of_pairwise_cons (List.pairwise_append.mp hrise).2.1 hxa
        exact absurd (hmin st hfails) (Nat.not_le.mpr hlt)

/-! ## What a thread's fault leaves of its core (R199 step 1) -/

/-- The faulting thread's core halts; its threads and its memory stay. -/
theorem State.core_threadFault_self (s : State) (t : Site) (st : Status) : (s.threadFault t st).core t.core = (s.core t.core).halt := by
  have hhalt := State.core_modCore_self s t.core Core.halt
  rw [State.threadFault, State.threadFaultAt]
  cases s.vatOf t.core with
  | none => exact hhalt
  | some v => exact (State.core_congr rfl rfl rfl t.core).trans hhalt

/-- The faulting thread's registers, program counter and status stay. -/
theorem State.thread_threadFault_self (s : State) (t : Site) (st : Status) : (s.threadFault t st).thread t = s.thread t := by
  rw [State.thread, State.core_threadFault_self]
  rfl

/-! ## The scalar instructions as issues with one check of their own (R201, R204) -/

section
variable (s : State) (t : Site) (f : FmtA)

theorem exec_add_eq : exec (.add t f) s = scalarOp s t f (decide (f.func ≠ 0)) (fun a y => a + y) := rfl
theorem exec_sra_eq : exec (.sra t f) s = scalarOp s t f (decide (f.func ≠ 0)) (fun a y => a.sshiftRight (y.toNat % 64)) := rfl
theorem exec_mulhu_eq : exec (.mulhu t f) s = scalarOp s t f (decide (f.func ≠ 0)) (fun a y => w64 (a.toNat * y.toNat / 2 ^ 64)) := rfl
theorem exec_cmp_eq : exec (.cmp t f) s =
    scalarOp s t f (decide (7 ≤ f.func.toNat)) (fun a y => if cond64 f.func.toNat a y then 1 else 0) := rfl
theorem exec_nop_eq : exec (.nop t f) s = issue s t false true [(decide (f ≠ {}), .illegal)] (fun u => u) := rfl
theorem exec_rdstamp_eq (cyc : BitVec 24) : exec (.rdstamp t f cyc) s =
    issue s t false true [(badLi f || f.imm ≠ 0 || f.d = 31, .illegal)]
      (fun u => (u.setS t f.d (w64 (s.tickOf (halfOf (regionOf t.core))))).setS t (f.d + 1) (cyc.setWidth 64)) := rfl

end

/-! ## The faults of the scalar instructions (R185, R201, R204) -/

/-- ILLEGAL comes before the ADDRESS of a thread that would leave the store. -/
theorem issue_illegal {s : State} {t : Site} (hi : s.canIssue t = true) (seq : Bool) (eff : State → State) :
    issue s t false seq [(true, .illegal)] eff = .next (s.threadFault t .illegal) := by
  refine issue_fault s t false seq _ eff _ (by simp [hi]) ?_
  cases seq && decide ((s.thread t).pc = 2047) <;> rfl

/-- An instruction at index 2,047 that passes its own check has no successor in the store and faults with ADDRESS. -/
theorem issue_address_at_end {s : State} {t : Site} (hi : s.canIssue t = true) (st : Status) (eff : State → State)
    (hpc : (s.thread t).pc = 2047) : issue s t false true [(false, st)] eff = .next (s.threadFault t .address) :=
  issue_fault s t false true _ eff _ (by simp [hi]) (by simp [hpc, firstFault])

theorem scalarOp_illegal {s : State} {t : Site} {f : FmtA} {badFunc : Bool} (hi : s.canIssue t = true)
    (hbad : (badA f || badFunc) = true) (op : Word64 → Word64 → Word64) :
    scalarOp s t f badFunc op = .next (s.threadFault t .illegal) := by
  rw [scalarOp, hbad, issue_illegal hi]

theorem badA_iff (f : FmtA) : badA f = true ↔ (f.i = 1 ∧ f.b ≠ 0) ∨ (f.i = 0 ∧ f.imm ≠ 0) := by simp [badA]

theorem badA_eq_false {f : FmtA} (hb : f.i = 1 → f.b = 0) (himm : f.i = 0 → f.imm = 0) : badA f = false := by
  rw [Bool.eq_false_iff, ne_eq, badA_iff]
  rintro (⟨hi, hne⟩ | ⟨hi, hne⟩)
  · exact hne (hb hi)
  · exact hne (himm hi)

/-- ADD and its like with an unused field or FUNC that is not zero fault with ILLEGAL. -/
theorem exec_add_mulhu_sra_illegal {s : State} {t : Site} {f : FmtA} (hi : s.canIssue t = true)
    (hbad : (f.i = 1 ∧ f.b ≠ 0) ∨ (f.i = 0 ∧ f.imm ≠ 0) ∨ f.func ≠ 0) :
    exec (.add t f) s = .next (s.threadFault t .illegal) ∧ exec (.mulhu t f) s = .next (s.threadFault t .illegal) ∧
      exec (.sra t f) s = .next (s.threadFault t .illegal) := by
  have hbad : (badA f || decide (f.func ≠ 0)) = true := by simpa [badA_iff, or_assoc] using hbad
  rw [exec_add_eq, exec_mulhu_eq, exec_sra_eq]
  exact ⟨scalarOp_illegal hi hbad _, scalarOp_illegal hi hbad _, scalarOp_illegal hi hbad _⟩

/-- CMP with a FUNC that is no condition code faults with ILLEGAL. -/
theorem exec_cmp_illegal {s : State} {t : Site} {f : FmtA} (hi : s.canIssue t = true) (hfunc : 7 ≤ f.func.toNat) :
    exec (.cmp t f) s = .next (s.threadFault t .illegal) := by
  rw [exec_cmp_eq, scalarOp_illegal hi (by simp [hfunc])]

/-- RDSTAMP into register 31, which has no successor for the cycle count, faults with ILLEGAL. -/
theorem exec_rdstamp_illegal {s : State} {t : Site} {f : FmtA} (hi : s.canIssue t = true) (hd : f.d = 31) (cyc : BitVec 24) :
    exec (.rdstamp t f cyc) s = .next (s.threadFault t .illegal) := by
  rw [exec_rdstamp_eq, decide_eq_true hd, Bool.or_true, issue_illegal hi]

/-- A NOP of another encoding than the all-zero word faults with ILLEGAL. -/
theorem exec_nop_illegal {s : State} {t : Site} {f : FmtA} (hi : s.canIssue t = true) (hf : f ≠ {}) :
    exec (.nop t f) s = .next (s.threadFault t .illegal) := by
  rw [exec_nop_eq, decide_eq_true hf, issue_illegal hi]

theorem exec_nop_address_at_end {s : State} {t : Site} (hi : s.canIssue t = true) (hpc : (s.thread t).pc = 2047) :
    exec (.nop t {}) s = .next (s.threadFault t .address) := by
  rw [exec_nop_eq, decide_eq_false (not_not_intro rfl), issue_address_at_end hi _ _ hpc]

theorem exec_add_address_at_end {s : State} {t : Site} {f : FmtA} (hi : s.canIssue t = true) (hpc : (s.thread t).pc = 2047)
    (hfunc : f.func = 0) (hbad : badA f = false) : exec (.add t f) s = .next (s.threadFault t .address) := by
  rw [exec_add_eq, scalarOp, hbad, decide_eq_false (not_not_intro hfunc), Bool.or_false, issue_address_at_end hi _ _ hpc]

/-! ## The obligation -/

/-- Settles O5: firstFault reports the failed check of the least status code, and R198's order is that of the codes. -/
theorem issueFaultOrder : Obligations.IssueFaultOrder := by
  refine ⟨fun s t checks eff hissue => ?_, fun s t f hissue => ?_⟩
  · intro order hall
    have hgo : (!s.canIssue t || false) = false := by simp [hissue]
    have hseq := firstFault_append_passed checks .address
    exact ⟨fun st hst => issue_fault s t false false checks eff st hgo (hseq.trans (firstFault_of_find?_precedence hall hst)),
      fun hpass => issue_ok s t false false checks eff hgo (hseq.trans ((firstFault_eq_none_iff checks).mpr hpass))⟩
  · intro stop
    refine ⟨exec_add_mulhu_sra_illegal hissue, exec_cmp_illegal hissue, exec_rdstamp_illegal hissue, exec_nop_illegal hissue,
      fun hpc => ?_, fun st => ?_⟩
    · exact ⟨exec_nop_address_at_end hissue hpc,
        fun hfunc hb himm => exec_add_address_at_end hissue hpc hfunc (badA_eq_false hb himm)⟩
    · rw [State.core_threadFault_self]
      exact ⟨rfl, rfl, rfl, State.thread_threadFault_self s t st⟩

end Sys2Proof.Machine
end

section
/-! PROOFS. The order of VTOPK on its candidates is a linear order on keys, and its insertion sort sorts by them (R213). -/

namespace Sys2Proof.Machine

/-! ## The order of FP32 values as a linear order (R103) -/

/-- A value's place on the extended line: the finite ones by their exact value, −inf below and +inf above them, NaN below all. -/
def Fp.place : Fp → ℤ ×ₗ ℚ
  | .nan => toLex (-2, 0)
  | .inf neg => toLex (if neg then -1 else 1, 0)
  | .fin neg m e => toLex (0, (if neg then -(m : ℚ) else m) * 2 ^ e)

/-- A value's place, and between the two zeros the sign: the order in which −0 lies below +0 (R103) and NaN below −inf (R213). -/
def Fp.rank (x : Fp) : (ℤ ×ₗ ℚ) ×ₗ Bool := toLex (x.place, !x.sign)

theorem place_negInf_lt (b : Bool) (m : Nat) (e : Int) : (Fp.inf true).place < (Fp.fin b m e).place :=
  Prod.Lex.toLex_lt_toLex.mpr (.inl neg_one_lt_zero)

theorem place_lt_posInf (b : Bool) (m : Nat) (e : Int) : (Fp.fin b m e).place < (Fp.inf false).place :=
  Prod.Lex.toLex_lt_toLex.mpr (.inl zero_lt_one)

/-- A signed magnitude at a lesser exponent stands for the same exact value. -/
theorem atExp_mul_two_zpow (b : Bool) (m : Nat) {e q : Int} (h : q ≤ e) :
    (atExp b m e q : ℚ) * 2 ^ q = (if b then -(m : ℚ) else m) * 2 ^ e := by
  have hexp : (2 : ℚ) ^ (e - q).toNat * 2 ^ q = 2 ^ e := by
    rw [← zpow_natCast, ← zpow_add₀ two_ne_zero, Int.toNat_of_nonneg (by omega), sub_add_cancel]
  cases b <;> simp [atExp, mul_assoc, hexp]

/-- Integers at one exponent compare as the values they stand for. -/
theorem place_at_exponent_strictMono (q : Int) : StrictMono (fun v : ℤ => (toLex (0, (v : ℚ) * 2 ^ q) : ℤ ×ₗ ℚ)) := by
  intro v w h
  have hlt : (v : ℚ) * 2 ^ q < w * 2 ^ q := by gcongr
  exact Prod.Lex.toLex_lt_toLex.mpr (.inr ⟨rfl, hlt⟩)

/-- fpCmp compares numbers by their places. -/
theorem fpCmp_eq_compare_place {a b : Fp} (ha : a.isNan = false) (hb : b.isNan = false) :
    fpCmp a b = some (compare a.place b.place) := by
  match a, b with
  | .inf x, .inf y => revert x y; decide
  | .inf true, .fin _ _ _ => exact congrArg some (compare_lt_iff_lt.mpr (place_negInf_lt _ _ _)).symm
  | .inf false, .fin _ _ _ => exact congrArg some (compare_gt_iff_gt.mpr (place_lt_posInf _ _ _)).symm
  | .fin _ _ _, .inf true => exact congrArg some (compare_gt_iff_gt.mpr (place_negInf_lt _ _ _)).symm
  | .fin _ _ _, .inf false => exact congrArg some (compare_lt_iff_lt.mpr (place_lt_posInf _ _ _)).symm
  | .fin x m e, .fin y n g =>
    rw [fpCmp, Fp.place, Fp.place, ← atExp_mul_two_zpow x m (min_le_left e g), ← atExp_mul_two_zpow y n (min_le_right e g),
      ← cmp_eq_compare, ← cmp_eq_compare]
    exact congrArg some ((place_at_exponent_strictMono (min e g)).cmp_map_eq _ _).symm

/-- One number lies below another exactly when its rank does. -/
theorem fpBelow_iff_rank_lt {a b : Fp} (ha : a.isNan = false) (hb : b.isNan = false) : fpBelow a b = true ↔ a.rank < b.rank := by
  rw [fpBelow, fpCmp_eq_compare_place ha hb, Fp.rank, Fp.rank, Prod.Lex.toLex_lt_toLex]
  obtain h | h | h := lt_trichotomy a.place b.place
  · simp [compare_lt_iff_lt.mpr h, h]
  · simp [h, Bool.lt_iff]
  · simp [compare_gt_iff_gt.mpr h, h.not_gt, h.ne']

theorem rank_nan_lt {a b : Fp} (ha : a.isNan = true) (hb : b.isNan = false) : a.rank < b.rank := by
  match a, b with
  | .nan, .inf x => cases x <;> simp [Fp.rank, Fp.place, Prod.Lex.toLex_lt_toLex]
  | .nan, .fin _ _ _ => simp [Fp.rank, Fp.place, Prod.Lex.toLex_lt_toLex]

theorem rank_eq_of_nan {a b : Fp} (ha : a.isNan = true) (hb : b.isNan = true) : a.rank = b.rank := by
  match a, b with
  | .nan, .nan => rfl

/-! ## VTOPK's order as a linear order on keys (R213) -/

/-- What VTOPK sorts a candidate by, ascending: the rank of its value, the greatest first, then its identifier. -/
def topKey (p : Word32 × Word32) : ((ℤ ×ₗ ℚ) ×ₗ Bool)ᵒᵈ ×ₗ ℕ := toLex (OrderDual.toDual (dec32 p.1).rank, p.2.toNat)

theorem topKey_lt_iff (p q : Word32 × Word32) : topKey p < topKey q ↔
    (dec32 q.1).rank < (dec32 p.1).rank ∨ (dec32 p.1).rank = (dec32 q.1).rank ∧ p.2.toNat < q.2.toNat := by
  simp [topKey, Prod.Lex.toLex_lt_toLex]

theorem topKey_le_iff (p q : Word32 × Word32) : topKey p ≤ topKey q ↔
    (dec32 q.1).rank < (dec32 p.1).rank ∨ (dec32 p.1).rank = (dec32 q.1).rank ∧ p.2.toNat ≤ q.2.toNat := by
  simp [topKey, Prod.Lex.toLex_le_toLex]

/-- A candidate stands before another exactly when its key is the lesser. -/
theorem topBefore_iff_topKey_lt (p q : Word32 × Word32) : topBefore p q = true ↔ topKey p < topKey q := by
  rw [topKey_lt_iff, topBefore]
  cases hp : (dec32 p.1).isNan <;> cases hq : (dec32 q.1).isNan
  case true.true => simp [rank_eq_of_nan hp hq, BitVec.ult]
  case true.false => simp [(rank_nan_lt hp hq).not_gt, (rank_nan_lt hp hq).ne]
  case false.true => simp [rank_nan_lt hq hp]
  case false.false =>
    have hpq := fpBelow_iff_rank_lt hp hq
    have hqp := fpBelow_iff_rank_lt hq hp
    obtain h | h | h := lt_trichotomy (dec32 p.1).rank (dec32 q.1).rank
    · simp [hpq, hqp, h, h.not_gt, h.ne]
    · simp [hpq, hqp, h, BitVec.ult]
    · simp [hqp, h]

/-- Keys in order say what R213 says: NaN last, no lesser number first, and equal values by identifier. -/
theorem topOrder_of_topKey_le {p q : Word32 × Word32} (h : topKey p ≤ topKey q) :
    ((dec32 p.1).isNan = true → (dec32 q.1).isNan = true) ∧
    ((dec32 p.1).isNan = false → (dec32 q.1).isNan = false → fpBelow (dec32 p.1) (dec32 q.1) = false) ∧
    (((dec32 p.1).isNan = true ∧ (dec32 q.1).isNan = true) ∨
      ((dec32 p.1).isNan = false ∧ (dec32 q.1).isNan = false ∧ fpBelow (dec32 q.1) (dec32 p.1) = false) → p.2.toNat ≤ q.2.toNat) := by
  have hle : (dec32 q.1).rank ≤ (dec32 p.1).rank := ((topKey_le_iff p q).mp h).elim le_of_lt fun h => h.1.ge
  have hid : ¬ (dec32 q.1).rank < (dec32 p.1).rank → p.2.toNat ≤ q.2.toNat :=
    fun hn => (((topKey_le_iff p q).mp h).resolve_left hn).2
  refine ⟨fun hp => ?_, fun hp hq => ?_, ?_⟩
  · by_contra hq
    exact (rank_nan_lt hp (by simpa using hq)).not_ge hle
  · exact Bool.eq_false_iff.mpr (mt (fpBelow_iff_rank_lt hp hq).mp hle.not_gt)
  · rintro (⟨hp, hq⟩ | ⟨hp, hq, hbelow⟩)
    · exact hid (rank_eq_of_nan hp hq).not_gt
    · exact hid (by simpa [← fpBelow_iff_rank_lt hq hp] using hbelow)

/-! ## The insertion sort -/

/-- The keys of a list of candidates rise. -/
abbrev TopSorted (xs : List (Word32 × Word32)) : Prop := xs.Pairwise (fun p q => topKey p ≤ topKey q)

/-- The insertion of VTOPK is the library's ordered insertion. -/
theorem topInsert_eq_orderedInsert (a : Word32 × Word32) (xs : List (Word32 × Word32)) :
    topInsert a xs = xs.orderedInsert (fun p q => topBefore p q = true) a := by
  induction xs with
  | nil => rfl
  | cons b bs ih => rw [topInsert, ih, List.orderedInsert_cons]

theorem topInsert_perm (a : Word32 × Word32) (xs : List (Word32 × Word32)) : (topInsert a xs).Perm (a :: xs) :=
  topInsert_eq_orderedInsert a xs ▸ List.perm_orderedInsert _ a xs

theorem topInsert_sorted (a : Word32 × Word32) {xs : List (Word32 × Word32)} (h : TopSorted xs) :
    TopSorted (topInsert a xs) := by
  induction xs with
  | nil => simp [topInsert]
  | cons b bs ih =>
    obtain ⟨hb, hbs⟩ := List.pairwise_cons.mp h
    rw [topInsert]
    split
    case isTrue hab =>
      have hab := ((topBefore_iff_topKey_lt a b).mp hab).le
      exact List.pairwise_cons.mpr ⟨List.forall_mem_cons.mpr ⟨hab, fun c hc => hab.trans (hb c hc)⟩, h⟩
    case isFalse hab =>
      have hba : topKey b ≤ topKey a := not_lt.mp fun hlt => hab ((topBefore_iff_topKey_lt a b).mpr hlt)
      refine List.pairwise_cons.mpr ⟨fun c hc => ?_, ih hbs⟩
      obtain rfl | hc := List.mem_cons.mp ((topInsert_perm a bs).mem_iff.mp hc)
      · exact hba
      · exact hb c hc

/-- The sort in progress: what is sorted stays so and gains the rest. -/
theorem foldl_topInsert_perm_sorted (xs acc : List (Word32 × Word32)) (h : TopSorted acc) :
    (xs.foldl (fun acc a => topInsert a acc) acc).Perm (xs ++ acc) ∧
      TopSorted (xs.foldl (fun acc a => topInsert a acc) acc) := by
  induction xs generalizing acc with
  | nil => exact ⟨.refl _, h⟩
  | cons x xs ih =>
    obtain ⟨hperm, hsorted⟩ := ih (topInsert x acc) (topInsert_sorted x h)
    exact ⟨hperm.trans (((topInsert_perm x acc).append_left xs).trans List.perm_middle), hsorted⟩

theorem topSort_perm (xs : List (Word32 × Word32)) : (topSort xs).Perm xs := by
  simpa [topSort] using (foldl_topInsert_perm_sorted xs [] .nil).1

theorem topSort_sorted (xs : List (Word32 × Word32)) : TopSorted (topSort xs) :=
  (foldl_topInsert_perm_sorted xs [] .nil).2

/-! ## The instruction -/

theorem upTo_eq_range (n : Nat) : upTo n = List.range n := by
  induction n with
  | zero => rfl
  | succ n ih => rw [upTo, ih, List.range_succ]

/-- The candidates of a register pair, NaN as the canonical NaN (R213). -/
def topCandidates (h : Thread) (r : BitVec 3) : List (Word32 × Word32) :=
  (List.range 64).map (fun i =>
    (if (dec32 (lane (h.vreg r) i)).isNan = true then nan32 else lane (h.vreg r) i, lane (h.vreg (r + 1)) i))

/-- The candidates of VTOPK in order. -/
def topResult (h : Thread) (f : FmtV) : List (Word32 × Word32) := topSort (topCandidates h f.va ++ topCandidates h f.vb)

theorem topResult_length (h : Thread) (f : FmtV) : (topResult h f).length = 128 := by
  rw [topResult, (topSort_perm _).length_eq]
  simp [topCandidates]

/-- A field of VTOPK is misused: an unused one not zero, an odd register, or VD = VC (R201, R213). -/
def badTopk (f : FmtV) : Bool :=
  badRsvV f || f.sb ≠ 0 || f.s ≠ 0 || f.func ≠ 0 || oddV f.vd || oddV f.va || oddV f.vb || oddV f.vc || f.vd = f.vc

/-- A list of candidates written to a register pair: the values to the first register, the identifiers to the second. -/
def State.setPair (s : State) (t : Site) (r : BitVec 3) (xs : List (Word32 × Word32)) : State :=
  (s.setV t r (xs.map Prod.fst)).setV t (r + 1) (xs.map Prod.snd)

/-- VTOPK writes the first 64 of its candidates in order to (VD, VD + 1), the other 64 to (VC, VC + 1). -/
theorem exec_vtopk_eq (s : State) (t : Site) (f : FmtV) : exec (.vtopk t f) s =
    issue s t false true [(badTopk f, .illegal), (!isFp f, .format)]
      (fun u => (u.setPair t f.vd ((topResult (s.thread t) f).take 64)).setPair t f.vc ((topResult (s.thread t) f).drop 64)) := by
  simp only [topResult, topCandidates, ← upTo_eq_range]
  rfl

theorem oddV_iff (r : BitVec 3) : oddV r = true ↔ r.toNat % 2 = 1 := by simp [oddV, bitAt]

/-- An odd register, or VD = VC, is a misuse of VTOPK's fields. -/
theorem badTopk_of_odd_or_same {f : FmtV}
    (h : f.vd.toNat % 2 = 1 ∨ f.va.toNat % 2 = 1 ∨ f.vb.toNat % 2 = 1 ∨ f.vc.toNat % 2 = 1 ∨ f.vd = f.vc) : badTopk f = true := by
  simp only [← oddV_iff] at h
  obtain h | h | h | h | h := h <;> simp [badTopk, h]

theorem badTopk_eq_false {f : FmtV} (h1 : f.rsv1 = 0) (h2 : f.rsv2 = 0) (hsb : f.sb = 0) (hs : f.s = 0) (hfunc : f.func = 0)
    (hvd : f.vd.toNat % 2 = 0) (hva : f.va.toNat % 2 = 0) (hvb : f.vb.toNat % 2 = 0) (hvc : f.vc.toNat % 2 = 0) (hne : f.vd ≠ f.vc) :
    badTopk f = false := by
  have heven (r : BitVec 3) (hr : r.toNat % 2 = 0) : oddV r = false := by simp [Bool.eq_false_iff, oddV_iff, hr]
  simp [badTopk, badRsvV, h1, h2, hsb, hs, hfunc, heven, hvd, hva, hvb, hvc, hne]

/-- ILLEGAL is the first of R198's order. -/
theorem firstFault_illegal {cs : List (Bool × Status)} (hall : ∀ p ∈ cs, p.2 ∈ faultPrecedence) (h : (true, .illegal) ∈ cs) :
    firstFault cs = some .illegal :=
  firstFault_of_find?_precedence hall (by simp [faultPrecedence, h])

/-- VTOPK with a misused field faults with ILLEGAL. -/
theorem exec_vtopk_illegal {s : State} {t : Site} {f : FmtV} (hi : s.canIssue t = true) (hbad : badTopk f = true) :
    exec (.vtopk t f) s = .next (s.threadFault t .illegal) := by
  rw [exec_vtopk_eq, hbad]
  exact issue_fault s t false true _ _ _ (by simp [hi]) (firstFault_illegal (by simp [faultPrecedence]) (by simp))

/-- VTOPK in FP32, its fields in order, writes its candidates. -/
theorem exec_vtopk_ready {s : State} {t : Site} {f : FmtV} (hready : s.ready t) (hbad : badTopk f = false) (hfmt : f.fmt = 0xD) :
    exec (.vtopk t f) s = .next (((s.onward t).setPair t f.vd ((topResult (s.thread t) f).take 64)).setPair t f.vc
      ((topResult (s.thread t) f).drop 64)) := by
  obtain ⟨hi, hpc⟩ := hready
  rw [exec_vtopk_eq, hbad]
  exact issue_ok s t false true _ _ (by simp [hi]) (by simp [firstFault, isFp, hfmt, hpc])

/-! ## The obligation -/

/-- Settles O13: VTOPK's order is that of topKey, a linear order, by which the insertion sort rearranges the candidates. -/
theorem topkSorts : Obligations.TopkSorts := by
  refine ⟨fun s t f hready h1 h2 hsb hs hfunc hfmt hvd hva hvb hvc hne => ?_, fun s t f hi hbad => ?_⟩
  · have hbad := badTopk_eq_false h1 h2 hsb hs hfunc hvd hva hvb hvc hne
    have hlen := topResult_length (s.thread t) f
    refine ⟨(topResult (s.thread t) f).take 64, (topResult (s.thread t) f).drop 64, exec_vtopk_ready hready hbad hfmt,
      by simp [hlen], by simp [hlen], ?_, ?_⟩ <;> rw [List.take_append_drop]
    · exact topSort_perm _
    · exact (topSort_sorted _).imp topOrder_of_topKey_le
  · exact exec_vtopk_illegal hi (badTopk_of_odd_or_same hbad)

end Sys2Proof.Machine
end

section
/-! PROOFS. Conditionals, fields of registers, and what a logged event and an interrupt cause leave alone (R329, R331). -/

namespace Sys2Proof.Machine

/-- Both branches of a conditional agree under f. -/
theorem ite_keeps {α β : Type} (f : α → β) {p : Prop} [Decidable p] {x y : α} {b : β} (hx : f x = b) (hy : f y = b) : f (if p then x else y) = b := by
  by_cases h : p
  · rwa [if_pos h]
  · rwa [if_neg h]

theorem if_false_eq {α : Sort*} {b : Bool} {x y : α} (h : b = false) : (if b = true then x else y) = y := if_neg (h ▸ Bool.false_ne_true)

theorem forall_mem_cons_of {β : Type} {p : β → Prop} {a : β} {l : List β} (h : p a) (hl : ∀ i ∈ l, p i) : ∀ i ∈ a :: l, p i :=
  List.forall_mem_cons.mpr ⟨h, hl⟩

/-- A field is read from the registers alone. -/
theorem State.rfld_of_regs {s u : State} {r : Reg} {hi lo n : Nat} (e : s.rfld r hi lo = n) (h : u.regs = s.regs) : u.rfld r hi lo = n :=
  (congrArg (fun rs => fld (kget (regReset r) rs r) hi lo) h).trans e

/-- f reads nothing that a logged event writes. -/
structure EventFree {α : Type} (f : State → α) : Prop where
  event : ∀ (u : State) (rs : KMap Reg Word64) (b : Bool) (h : HostSt) (o : List Out),
    f { u with regs := rs, pow := { u.pow with alertReleased := b }, host := h, out := o } = f u

section
variable {α : Type} {f : State → α} (hf : EventFree f) (s : State)
include hf

theorem State.msix_keeps (p : HostPort) (vec : Nat) : f (s.msix p vec) = f s :=
  ite_keeps f (ite_keeps f rfl (hf.event s _ _ _ _)) (hf.event s _ _ _ _)

theorem State.cause_keeps (r : Reg) (bit : Nat) : f (s.cause r bit) = f s :=
  ite_keeps f rfl (ite_keeps f ((State.msix_keeps hf _ _ _).trans (hf.event s _ _ _ _)) (hf.event s _ _ _ _))

theorem State.logEvent_keeps (code status unit_ index : Nat) : f (s.logEvent code status unit_ index) = f s :=
  (State.cause_keeps hf _ _ _).trans (hf.event s _ _ _ _)

end

/-! ## Registers through an interrupt cause and a logged event -/

section
variable (s : State)

theorem State.getReg_msix (p : HostPort) (vec : Nat) (x : Reg) : (s.msix p vec).getReg x = s.getReg x :=
  ite_keeps (State.getReg · x) (ite_keeps (State.getReg · x) rfl rfl) rfl

theorem State.getReg_cause_ne {r x : Reg} (bit : Nat) (h : x ≠ r) : (s.cause r bit).getReg x = s.getReg x :=
  ite_keeps (State.getReg · x) rfl (ite_keeps (State.getReg · x) ((State.getReg_msix _ _ _ x).trans (State.getReg_putR_ne s _ _ _ h)) (State.getReg_putR_ne s _ _ _ h))

/-- The field is one bit. -/
theorem State.rfld_putR_bit (r : Reg) {i : Nat} (h : i < 64) (v : Nat) : (s.putR r i i v).rfld r i i = v % 2 :=
  (State.rfld_putR_self s r v le_rfl h).trans (congrArg (fun n => v % 2 ^ (n + 1)) (Nat.sub_self i))

/-- An interrupt cause stands once it has come. -/
theorem State.rfld_cause_self (r : Reg) {bit : Nat} (h : bit < 64) : (s.cause r bit).rfld r bit bit = 1 := by
  by_cases h1 : s.rfld r bit bit = 1
  · exact (congrArg (State.rfld · r bit bit) (if_pos h1)).trans h1
  · exact (congrArg (State.rfld · r bit bit) (if_neg h1)).trans (ite_keeps (State.rfld · r bit bit)
      ((congrArg (fld · bit bit) (State.getReg_msix _ _ _ r)).trans (s.rfld_putR_bit r h 1)) (s.rfld_putR_bit r h 1))

/-- The registers that a logged event writes. -/
noncomputable def loggedReg (x : Reg) : Bool := [Reg.glbIrq.ctorIdx, Reg.glbEventWr.ctorIdx, (Reg.glbEvent 0 0).ctorIdx].contains x.ctorIdx

theorem ne_of_logged {x r : Reg} (hx : loggedReg x = false) (hr : loggedReg r = true) : x ≠ r := fun e =>
  Bool.false_ne_true (hx.symm.trans ((congrArg loggedReg e).trans hr))

theorem State.getReg_logEvent {x : Reg} (hx : loggedReg x = false) (code status unit_ index : Nat) :
    (s.logEvent code status unit_ index).getReg x = s.getReg x := by
  have h (e : Fin 256) (w0 w1 : Word64) (n : Nat) :
      ((((s.setReg (.glbEvent e 0) w0).setReg (.glbEvent e 1) w1).putR .glbEventWr 7 0 n).bumpR .glbEventWr 39 8 1).getReg x = s.getReg x :=
    (State.getReg_putR_ne _ _ _ _ (ne_of_logged (r := .glbEventWr) hx rfl)).trans ((State.getReg_putR_ne _ _ _ _ (ne_of_logged (r := .glbEventWr) hx rfl)).trans
      ((State.getReg_setReg_ne _ _ (ne_of_logged (r := .glbEvent e 1) hx rfl)).trans (State.getReg_setReg_ne _ _ (ne_of_logged (r := .glbEvent e 0) hx rfl))))
  unfold State.logEvent
  refine (State.getReg_cause_ne _ _ (ne_of_logged (r := .glbIrq) hx rfl)).trans ?_
  refine Eq.trans (b := kget (regReset x) _ x) rfl ?_
  dsimp only
  exact h _ _ _ _

theorem State.rfld_logEvent {x : Reg} (hx : loggedReg x = false) (code status unit_ index hi lo : Nat) :
    (s.logEvent code status unit_ index).rfld x hi lo = s.rfld x hi lo := congrArg (fld · hi lo) (s.getReg_logEvent hx code status unit_ index)

end
end Sys2Proof.Machine
end

section
/-! PROOFS. The step, and the module right after reset. -/

namespace Sys2Proof.Machine

/-- Settles O1: both are the branches of step. -/
theorem stepRunsFrontCommand : Obligations.StepRunsFrontCommand :=
  ⟨fun _ _ s h => by rw [step, h], fun s h => by rw [step, h]⟩

/-! ## Reset (R6, R336) -/

/-- A field of a register whose reset value is given. -/
theorem State.reset_rfld {r : Reg} {w : Word64} (h : regReset r = w) (hi lo : Nat) : State.reset.rfld r hi lo = fld w hi lo :=
  congrArg (fld · hi lo) h

/-- No vat holds a region. -/
theorem State.reset_ownerOf (r : Region) : State.reset.ownerOf r = none := by
  have hreg (v : VatId) (w : Fin 3) : State.reset.vreg v (.vatRegions w) = 0 := rfl
  rw [State.ownerOf, List.find?_eq_none]
  intro v _
  rw [hreg, bitAt]
  simp

/-- No vat is live, so no thread is ready. -/
theorem State.reset_thread (c : CoreId) (i : Fin 16) : ((State.reset.core c).thread i).status = .idle := by
  have hc : State.reset.core c = freshCore false := by
    simp only [State.core, State.vatOf, State.reset_ownerOf]
    rfl
  rw [hc]
  rfl

/-- Settles O60: nothing is listed, so that each register reads its reset value and each core is a fresh one. -/
theorem resetState : Obligations.ResetState := by
  refine ⟨rfl, rfl, rfl, rfl, rfl, rfl, rfl, fun v => ⟨?_, ?_, ?_, ?_⟩, fun n => ⟨?_, ?_⟩, fun r => ⟨?_, ?_⟩,
    fun c => ⟨State.reset_ownerOf _, State.reset_thread c⟩⟩
  · exact (State.reset_rfld (w := 0) rfl _ _).trans rfl
  · exact (State.reset_rfld (w := 0x10000) rfl _ _).trans rfl
  · exact (State.reset_rfld (w := 0x400) rfl _ _).trans rfl
  · exact (State.reset_rfld (w := 0) rfl _ _).trans rfl
  · simp [State.queEn, State.reset_rfld (w := 0) (r := .que n) rfl, fld]
  · exact (State.reset_rfld (w := 0x10000000) rfl _ _).trans rfl
  · simp [State.regionOn, State.reset_rfld (w := 0x3FCA) (r := .pwrRegion r) rfl, fld]
  · simp [State.regionRetired, State.reset_rfld (w := 0x3FCA) (r := .pwrRegion r) rfl, fld]

end Sys2Proof.Machine
end

section
namespace Sys2Proof.Machine

/-- The lenders of a region, and LENT, as they were set. -/
theorem State.lenders_setLenders (s : State) (r : Region) (x : Region) (ls : List Region) : (s.setLenders r (ls ++ [x])).lenders r = ls ++ [x] := by
  have h : (ls ++ [x]).isEmpty = false := by cases ls <;> rfl
  exact (congrArg (kget [] · r) (if_false_eq h)).trans (kget_kset_self _ _ _ _)

theorem State.lent_setLenders (s : State) (r : Region) (x : Region) (ls : List Region) : (s.setLenders r (ls ++ [x])).rfld (.pwrRegion r) 23 23 = 1 := by
  have h : (ls ++ [x]).isEmpty = false := by cases ls <;> rfl
  exact (State.rfld_putR_self _ _ _ (by decide) (by decide)).trans (congrArg (· % 2) (if_false_eq h))

/-- The step that a region is put to. -/
theorem State.stepOf_putStep (s : State) (r : Region) {n : Nat} (h : n < 16) : (s.putR (.thermRegion r) 19 16 n).stepOf r = n :=
  (State.rfld_putR_self _ _ _ (by decide) (by decide)).trans (Nat.mod_eq_of_lt h)

/-- Settles O34. -/
theorem lendingAndSteps : Obligations.LendingAndSteps := by
  refine ⟨fun s c v hv hth hrun hrest => ?_, fun s c v hv hth => ?_, fun s a b h => ⟨_, if_pos h, State.lenders_setLenders _ _ _ _, State.lent_setLenders _ _ _ _, rfl⟩, fun s r hon => ?_⟩
  · refine Eq.trans (b := execCoreIdleMark c s) rfl ?_
    unfold execCoreIdleMark
    rw [hv]
    refine if_pos ?_
    rw [hrun, List.all_eq_true.mpr hrest, decide_eq_true hth]
    rfl
  · refine Eq.trans (b := execCoreIdleMark c s) rfl ?_
    unfold execCoreIdleMark
    rw [hv]
    refine if_false_eq ?_
    rw [decide_eq_false (not_not_intro hth)]
    rfl
  · have hx : s.stepOf r < 16 := Nat.mod_lt _ (by decide)
    refine ⟨_, (if_false_eq (hon ▸ rfl) : execTemperStep r s = _), fun h1 h2 => ?_, fun h1 => ?_, fun h1 => ?_, fun q hq => ?_, rfl⟩
    · rw [if_pos h1]
      exact State.stepOf_putStep _ _ (Nat.succ_lt_succ h2)
    · rw [if_neg (Nat.lt_asymm h1), if_pos h1]
      exact State.stepOf_putStep _ _ (Nat.lt_of_le_of_lt (Nat.sub_le _ _) hx)
    · rw [if_neg (h1 ▸ Nat.lt_irrefl _), if_neg (h1 ▸ Nat.lt_irrefl _)]
      exact State.stepOf_putStep _ _ hx
    · exact State.rfld_putR_ne _ _ _ _ _ _ (fun h => hq (Reg.thermRegion.inj h))
end Sys2Proof.Machine
end

section
namespace Sys2Proof.Machine

theorem List.not_mem_filter_ne {α : Type} [DecidableEq α] (x : α) (l : List α) : x ∉ l.filter (fun y => y ≠ x) :=
  fun h => of_decide_eq_true (List.mem_filter.mp h).2 rfl

/-- A region put on is on, at the step it is put to. -/
theorem State.regionOn_put (s : State) (r : Region) (n : Nat) : ((s.putR (.pwrRegion r) 14 14 1).putR (.thermRegion r) 19 16 n).regionOn r = true :=
  decide_eq_true ((State.rfld_putR_ne _ _ _ _ _ _ (fun h => Reg.noConfusion h)).trans (State.rfld_putR_bit _ _ (by decide) 1))

/-- The queues are read from the power state alone. -/
theorem State.wakes_of_pow {s u : State} {h : Half} {q : List (Nat × Region)} (e : s.wakes h = q) (hn : u.pow.wakeNorth = s.pow.wakeNorth)
    (hs : u.pow.wakeSouth = s.pow.wakeSouth) : u.wakes h = q := by
  cases h
  · exact hn.trans e
  · exact hs.trans e

/-- QUEUED follows the queue. -/
theorem State.wakes_setWakes (s : State) (h : Half) (q : List (Nat × Region)) : (s.setWakes h q).wakes h = q := by cases h <;> rfl
theorem State.queued_setWakes (s : State) (h : Half) (q : List (Nat × Region)) : (s.setWakes h q).rfld (.pwrWake (halfIndex h)) 7 0 = q.length % 256 :=
  State.rfld_putR_self _ _ _ (by decide) (by decide)
theorem State.queued_bumped (s : State) (h : Half) (q : List (Nat × Region)) :
    ((s.setWakes h q).bumpR (.pwrWake (halfIndex h)) 31 8 1).rfld (.pwrWake (halfIndex h)) 7 0 = q.length % 256 :=
  (State.rfld_putR_below _ _ (hi := 31) (lo := 8) (h := 7) (l := 0) _ (by decide) (by decide) (by decide) (by decide)).trans (s.queued_setWakes h q)

theorem State.powering_setWakes (s : State) (h : Half) (q : List (Nat × Region)) : (s.setWakes h q).pow.powering = s.pow.powering := by cases h <;> rfl

theorem State.regionOn_of_regs {s u : State} {r : Region} (h : u.regs = (s.putR (.pwrRegion r) 15 15 0).regs) : u.regionOn r = s.regionOn r :=
  congrArg (fun n => decide (n = 1)) (State.rfld_of_regs (State.rfld_putR_below s (.pwrRegion r) (hi := 15) (lo := 15) (h := 14) (l := 14) 0 (by decide) (by decide) (by decide) (by decide)) h)

theorem contains_eq_false {α : Type} [DecidableEq α] {x : α} {l : List α} (h : x ∉ l) : l.contains x = false :=
  Bool.eq_false_iff.mpr fun e => h (List.contains_iff_mem.mp e)

theorem not_contains_eq_false {α : Type} [DecidableEq α] {x : α} {l : List α} (h : x ∈ l) : (!l.contains x) = false :=
  congrArg not (List.contains_iff_mem.mpr h)

theorem State.aborted_setWakes (s : State) (h : Half) (q : List (Nat × Region)) : (s.setWakes h q).pow.aborted = s.pow.aborted := by cases h <;> rfl

/-- Settles O39. -/
theorem regionWakes : Obligations.RegionWakes := by
  refine ⟨fun s h t r q hq h2 h6 => ?_, fun s r hp hoff => ⟨fun hr => ?_, fun hr => ?_, fun hshort => ?_⟩, fun s r hr => ?_, fun s r ha hm => ?_⟩
  · have hgo : (s.modState < 2 || 6 ≤ s.modState : Bool) = false := by
      rw [decide_eq_false (Nat.not_lt.mpr h2), decide_eq_false (Nat.not_le.mpr h6)]; rfl
    apply Exists.intro
    apply And.intro
    · change execRegionPowerUpStart h s = _
      unfold execRegionPowerUpStart
      rw [hq]
      exact if_false_eq hgo
    · exact ⟨State.wakes_of_pow (s.wakes_setWakes h q) rfl rfl, congrArg (· ++ [r]) (s.powering_setWakes h q),
        State.rfld_of_regs (s.queued_bumped h q) rfl, rfl⟩
  · exact ⟨_, ((if_false_eq (not_contains_eq_false hp)).trans ((if_false_eq (contains_eq_false hoff)).trans (if_false_eq (contains_eq_false hr))) :
      execRegionPowerUpEnd r s = _), State.regionOn_put _ r 0, State.stepOf_putStep _ _ (by decide), List.not_mem_filter_ne r _,
      (State.rfld_putR_ne _ _ _ _ _ _ (fun h => Reg.noConfusion h)).trans ((State.rfld_putR_above _ _ _ (by decide) (by decide) (by decide)).trans
        (State.rfld_putR_bit _ _ (by decide) 0)), rfl⟩
  · exact ⟨_, ((if_false_eq (not_contains_eq_false hp)).trans ((if_false_eq (contains_eq_false hoff)).trans (if_pos (List.contains_iff_mem.mpr hr))) :
      execRegionPowerUpEnd r s = _), List.mem_append_right _ (List.mem_singleton_self r), List.not_mem_filter_ne r _,
      State.regionOn_of_regs rfl, rfl⟩
  · have hshorted := Bool.or_eq_false_iff.mpr ⟨not_contains_eq_false hp, decide_eq_false fun e => absurd (hshort.symm.trans e) Nat.one_ne_zero⟩
    refine ⟨fun ho => ?_, fun ho => ?_⟩
    · exact ⟨_, ((if_false_eq hshorted).trans ((if_false_eq (contains_eq_false hoff)).trans (if_false_eq (contains_eq_false ho))) :
      execInrushAbort r s = _), List.mem_append_right _ (List.mem_singleton_self r), List.not_mem_filter_ne r _, rfl⟩
    · refine ⟨_, ((if_false_eq hshorted).trans ((if_false_eq (contains_eq_false hoff)).trans (if_pos (List.contains_iff_mem.mpr ho))) :
        execInrushAbort r s = _), ?_, ?_, ?_, ?_⟩
      · exact (State.logEvent_keeps (f := fun u => u.pow.confirm) ⟨fun _ _ _ _ _ => rfl⟩ _ _ _ _ _).symm ▸ List.mem_append_right _ (List.mem_singleton_self r)
      · exact (State.logEvent_keeps (f := fun u => u.pow.powering) ⟨fun _ _ _ _ _ => rfl⟩ _ _ _ _ _).symm ▸ List.not_mem_filter_ne r _
      · exact (State.rfld_logEvent _ rfl _ _ _ _ _ _).trans (State.rfld_putR_bit _ _ (by decide) 1)
      · exact (State.rfld_logEvent _ rfl _ _ _ _ _ _).trans ((State.rfld_putR_ne _ _ _ _ _ _ (fun h => Reg.noConfusion h)).trans
          (State.rfld_putR_bit _ _ (by decide) 0))
  · exact ⟨_, (if_false_eq (not_contains_eq_false hr) : execRelock r s = _), State.regionOn_put _ r 10, State.stepOf_putStep _ _ (by decide),
      List.not_mem_filter_ne r _, rfl⟩
  · exact ⟨_, (if_false_eq (Bool.or_eq_false_iff.mpr ⟨not_contains_eq_false ha, decide_eq_false hm⟩) : execWakeRetry r s = _),
      (State.aborted_setWakes _ _ _).symm ▸ List.not_mem_filter_ne r _, State.wakes_setWakes _ _ _⟩
end Sys2Proof.Machine
end

section
namespace Sys2Proof.Machine

/-- The stop of a region's holder is one report of its vat, when there is one. -/
theorem State.stopHolder_keeps {α : Type} {f : State → α} (hf : ∀ u x, f (State.report u x) = f u) (s : State) (r : Region) (st : Status) :
    f (s.stopHolder r st) = f s := by
  unfold State.stopHolder
  cases s.ownerOf r with
  | none => rfl
  | some v => exact hf _ _

theorem State.regionRuns_of_fenced {s : State} {r : Region} (h : s.pow.fenced.contains r = true) : s.regionRuns r = false :=
  congrArg (fun b => (b && _ && _)) ((congrArg (fun b => (_ && !b)) h).trans (Bool.and_false _))

theorem State.stopHolder_some {s : State} {r : Region} {v : VatId} (st : Status) (h : s.ownerOf r = some v) : s.stopHolder r st = s.hardStop v st (cornerOf r) := by
  unfold State.stopHolder; rw [h]
theorem State.stopHolder_none {s : State} {r : Region} (st : Status) (h : s.ownerOf r = none) : s.stopHolder r st = s := by
  unfold State.stopHolder; rw [h]

theorem State.fenceRegion_keeps {α : Type} {f : State → α} (hf : ∀ (u : State) l, f { u with pow := { u.pow with fenced := l } } = f u)
    (s : State) (r : Region) : f (s.fenceRegion r) = f s := ite_keeps f rfl (hf _ _)

theorem State.fenceRegion_fenced {s : State} {r : Region} (h : s.pow.fenced.contains r = false) :
    (s.fenceRegion r).pow.fenced = s.pow.fenced ++ [r] := congrArg (fun u : State => u.pow.fenced) (if_neg (h ▸ Bool.false_ne_true))

theorem execTickLoss_of {s : State} {r : Region} (hon : s.regionOn r = true) (hf : s.pow.fenced.contains r = false) :
    execTickLoss r s = .next (((s.fenceRegion r).stopHolder r .vatfault).logEvent 0x0010 (statusCode .vatfault) 1 r) := 
  if_neg (by rw [hon, hf]; exact Bool.false_ne_true)

/-- What neither the fence, the stop nor the event writes. -/
theorem tickLoss_keeps {α : Type} {f : State → α} (he : EventFree f) (hr : ∀ u x, f (State.report u x) = f u)
   (hp : ∀ (u : State) l, f { u with pow := { u.pow with fenced := l } } = f u) (s : State) (r : Region) :
   f (((s.fenceRegion r).stopHolder r .vatfault).logEvent 0x0010 (statusCode .vatfault) 1 r) = f s :=
  (State.logEvent_keeps he _ _ _ _ _).trans ((State.stopHolder_keeps hr _ _ _).trans (State.fenceRegion_keeps hp _ _))

/-- Settles O30. -/
theorem tickLossFences : Obligations.TickLossFences := fun s r hon hf =>
  have hfenced := ((State.logEvent_keeps (f := fun u => u.pow.fenced) ⟨fun _ _ _ _ _ => rfl⟩ _ _ _ _ _).trans
      (State.stopHolder_keeps (f := fun u => u.pow.fenced) (fun _ _ => rfl) _ _ _)).trans (State.fenceRegion_fenced hf)
  have hreports : (((s.fenceRegion r).stopHolder r .vatfault).logEvent 0x0010 (statusCode .vatfault) 1 r).reports = ((s.fenceRegion r).stopHolder r .vatfault).reports := State.logEvent_keeps (f := State.reports) ⟨fun _ _ _ _ _ => rfl⟩ _ _ _ _ _
  have howner := State.fenceRegion_keeps (f := (·.ownerOf r)) (fun _ _ => rfl) s r
  have hsame := State.fenceRegion_keeps (f := State.reports) (fun _ _ => rfl) s r
  have hmem := hfenced ▸ List.mem_append_right _ (List.mem_singleton_self r)
  ⟨_, execTickLoss_of hon hf, hmem, State.regionRuns_of_fenced (List.contains_iff_mem.mpr hmem),
    tickLoss_keeps (f := State.cores) ⟨fun _ _ _ _ _ => rfl⟩ (fun _ _ => rfl) (fun _ _ => rfl) s r,
    fun v hv => ⟨_, (hreports.trans (congrArg State.reports (State.stopHolder_some .vatfault (howner.trans hv)))).trans (congrArg (· ++ [_]) hsame), rfl, rfl, rfl⟩,
    fun hv => (hreports.trans (congrArg State.reports (State.stopHolder_none .vatfault (howner.trans hv)))).trans hsame⟩
end Sys2Proof.Machine
end

section
/-! PROOFS. Instruction words: the opcode and the fields of a format are the digits of its word (R191, R192). -/

namespace Sys2Proof

/-! ## Digits: fields laid end to end in a number -/

/-- The fields of the given widths that lie end to end in n from bit p on. -/
noncomputable def digits (n : Nat) : Nat → List Nat → List (Σ w, BitVec w)
  | _, [] => []
  | p, w :: ws => ⟨w, BitVec.ofNat w (n / 2 ^ p)⟩ :: digits n (p + w) ws

/-- A number with fields laid end to end above it from bit p on. -/
noncomputable def laid : Nat → Nat → List (Σ w, BitVec w) → Nat
  | n, _, [] => n
  | n, p, ⟨w, v⟩ :: fs => laid (n + v.toNat * 2 ^ p) (p + w) fs

theorem add_mul_pow_lt {n p w v : Nat} (h : n < 2 ^ p) (hv : v < 2 ^ w) : n + v * 2 ^ p < 2 ^ (p + w) :=
  Nat.add_comm n _ ▸ Nat.pow_add 2 p w ▸ Nat.mul_comm (2 ^ w) _ ▸ Machine.mix_lt h hv

/-- The digit at bit p, and what lies below it. -/
theorem digit_spec {N n p w : Nat} {v : BitVec w} (h : n < 2 ^ p) (hN : N % 2 ^ (p + w) = n + v.toNat * 2 ^ p) :
    N % 2 ^ p = n ∧ BitVec.ofNat w (N / 2 ^ p) = v := by
  have hd := (Nat.div_mod_unique (Nat.two_pow_pos p)).mpr ⟨Nat.mul_comm v.toNat _ ▸ hN.symm, h⟩
  rw [Nat.pow_add, Nat.mod_mul_right_div_self, Nat.mod_mul_right_mod] at hd
  exact ⟨hd.2, BitVec.eq_of_toNat_eq hd.1⟩

/-- The fields laid into a number are read back from it. -/
theorem laid_spec (fs : List (Σ w, BitVec w)) : ∀ n p : Nat, n < 2 ^ p →
    laid n p fs < 2 ^ (p + (fs.map Sigma.fst).sum) ∧ laid n p fs % 2 ^ p = n ∧ digits (laid n p fs) p (fs.map Sigma.fst) = fs := by
  induction fs with
  | nil => exact fun n p h => ⟨h, Nat.mod_eq_of_lt h, rfl⟩
  | cons f fs ih =>
    intro n p h
    obtain ⟨hlt, hmod, hdig⟩ := ih _ _ (add_mul_pow_lt h f.2.isLt)
    obtain ⟨hlow, hfield⟩ := digit_spec h hmod
    exact ⟨(Nat.add_assoc p f.1 _) ▸ hlt, hlow, congr (congrArg (fun x => List.cons (Sigma.mk f.1 x)) hfield) hdig⟩

/-- The fields read from a number, laid again, give it back. -/
theorem laid_digits (ws : List Nat) : ∀ n p : Nat, laid (n % 2 ^ p) p (digits n p ws) = n % 2 ^ (p + ws.sum) := by
  induction ws with
  | nil => exact fun _ _ => rfl
  | cons w ws ih =>
    intro n p
    have hstep : n % 2 ^ p + n / 2 ^ p % 2 ^ w * 2 ^ p = n % 2 ^ (p + w) := by rw [Nat.pow_add, Nat.mod_mul, Nat.mul_comm]
    exact (congrArg (fun m => laid m (p + w) (digits n (p + w) ws)) hstep).trans ((ih n (p + w)).trans (congrArg (fun k => n % 2 ^ k) (Nat.add_assoc _ _ _)))

/-- A field of a known width. -/
noncomputable def fieldAt (l : List (Σ w, BitVec w)) (i w : Nat) : BitVec w :=
  match l[i]? with
  | some ⟨x, v⟩ => if h : x = w then h ▸ v else 0
  | none => 0

theorem word_of_fields (w : Word64) (ws : List Nat) (hw : 8 + ws.sum = 64) : w64 (laid (w.toNat % 256) 8 (digits w.toNat 8 ws)) = w := by
  rw [show (256 : Nat) = 2 ^ 8 from rfl, laid_digits, hw]
  exact (congrArg w64 (Nat.mod_eq_of_lt w.isLt)).trans ((BitVec.ofNat_toNat 64 w).trans (BitVec.setWidth_eq w))

/-! ## The formats (R191), as lists of fields -/

noncomputable def FmtA.fields (f : FmtA) : List (Σ w, BitVec w) := [⟨5, f.d⟩, ⟨5, f.a⟩, ⟨5, f.b⟩, ⟨1, f.i⟩, ⟨8, f.func⟩, ⟨32, f.imm⟩]
noncomputable def FmtA.ofFields (l : List (Σ w, BitVec w)) : FmtA :=
  .mk (fieldAt l 0 5) (fieldAt l 1 5) (fieldAt l 2 5) (fieldAt l 3 1) (fieldAt l 4 8) (fieldAt l 5 32)
noncomputable def FmtB.fields (f : FmtB) : List (Σ w, BitVec w) := [⟨5, f.a⟩, ⟨5, f.b⟩, ⟨3, f.cond⟩, ⟨4, f.thread⟩, ⟨7, f.rsv⟩, ⟨32, f.target⟩]
noncomputable def FmtB.ofFields (l : List (Σ w, BitVec w)) : FmtB :=
  .mk (fieldAt l 0 5) (fieldAt l 1 5) (fieldAt l 2 3) (fieldAt l 3 4) (fieldAt l 4 7) (fieldAt l 5 32)
noncomputable def FmtM.fields (f : FmtM) : List (Σ w, BitVec w) := [⟨5, f.d⟩, ⟨5, f.base⟩, ⟨2, f.width⟩, ⟨2, f.acc⟩, ⟨1, f.sign⟩, ⟨1, f.rsv1⟩, ⟨24, f.offset⟩, ⟨16, f.rsv2⟩]
noncomputable def FmtM.ofFields (l : List (Σ w, BitVec w)) : FmtM :=
  .mk (fieldAt l 0 5) (fieldAt l 1 5) (fieldAt l 2 2) (fieldAt l 3 2) (fieldAt l 4 1) (fieldAt l 5 1) (fieldAt l 6 24) (fieldAt l 7 16)
noncomputable def FmtV.fields (f : FmtV) : List (Σ w, BitVec w) := [⟨3, f.vd⟩, ⟨3, f.va⟩, ⟨3, f.vb⟩, ⟨3, f.vc⟩, ⟨4, f.fmt⟩, ⟨5, f.s⟩, ⟨1, f.sb⟩, ⟨2, f.rsv1⟩, ⟨16, f.func⟩, ⟨16, f.rsv2⟩]
noncomputable def FmtV.ofFields (l : List (Σ w, BitVec w)) : FmtV :=
  .mk (fieldAt l 0 3) (fieldAt l 1 3) (fieldAt l 2 3) (fieldAt l 3 3) (fieldAt l 4 4) (fieldAt l 5 5) (fieldAt l 6 1) (fieldAt l 7 2) (fieldAt l 8 16) (fieldAt l 9 16)
noncomputable def FmtT.fields (f : FmtT) : List (Σ w, BitVec w) := [⟨12, f.line⟩, ⟨12, f.count⟩, ⟨4, f.wfmt⟩, ⟨4, f.afmt⟩, ⟨1, f.cls⟩, ⟨1, f.buf⟩, ⟨2, f.tok⟩, ⟨1, f.tile⟩, ⟨10, f.feat⟩, ⟨4, f.src⟩, ⟨5, f.span⟩]
noncomputable def FmtT.ofFields (l : List (Σ w, BitVec w)) : FmtT :=
  .mk (fieldAt l 0 12) (fieldAt l 1 12) (fieldAt l 2 4) (fieldAt l 3 4) (fieldAt l 4 1) (fieldAt l 5 1) (fieldAt l 6 2) (fieldAt l 7 1) (fieldAt l 8 10) (fieldAt l 9 4) (fieldAt l 10 5)
noncomputable def FmtX.fields (f : FmtX) : List (Σ w, BitVec w) := [⟨5, f.dst⟩, ⟨5, f.src⟩, ⟨5, f.len⟩, ⟨3, f.cls⟩, ⟨1, f.vc⟩, ⟨2, f.opw⟩, ⟨1, f.mc⟩, ⟨2, f.mdir⟩, ⟨9, f.mspan⟩, ⟨8, f.flow⟩, ⟨1, f.rot⟩, ⟨14, f.rsv⟩]
noncomputable def FmtX.ofFields (l : List (Σ w, BitVec w)) : FmtX :=
  .mk (fieldAt l 0 5) (fieldAt l 1 5) (fieldAt l 2 5) (fieldAt l 3 3) (fieldAt l 4 1) (fieldAt l 5 2) (fieldAt l 6 1) (fieldAt l 7 2) (fieldAt l 8 9) (fieldAt l 9 8) (fieldAt l 10 1) (fieldAt l 11 14)
noncomputable def FmtW.fields (f : FmtW) : List (Σ w, BitVec w) := [⟨12, f.vid⟩, ⟨5, f.s⟩, ⟨7, f.rsv1⟩, ⟨16, f.value⟩, ⟨16, f.rsv2⟩]
noncomputable def FmtW.ofFields (l : List (Σ w, BitVec w)) : FmtW :=
  .mk (fieldAt l 0 12) (fieldAt l 1 5) (fieldAt l 2 7) (fieldAt l 3 16) (fieldAt l 4 16)

/-! ## The opcode map (R192), as a table: opcode, widths of the fields, and the instruction with given fields -/

/-- A row of the opcode map: an opcode, the widths of its fields, and the instruction with given fields. -/
abbrev OpRow := Nat × List Nat × (List (Σ w, BitVec w) → Site → BitVec 24 → Instr)

/-- Rows of the opcode map from an opcode on, all of one format. -/
noncomputable def opRows {F : Type} (op : Nat) (ws : List Nat) (mk : List (Σ w, BitVec w) → F) (cs : List (Site → F → Instr)) :
    List OpRow :=
  (cs.zipIdx op).map fun c => (c.2, ws, fun l t _ => c.1 t (mk l))

noncomputable def opTable : List OpRow :=
  let A := [5, 5, 5, 1, 8, 32]
  let B := [5, 5, 3, 4, 7, 32]
  let M := [5, 5, 2, 2, 1, 1, 24, 16]
  let V := [3, 3, 3, 3, 4, 5, 1, 2, 16, 16]
  let X := [5, 5, 5, 3, 1, 2, 1, 2, 9, 8, 1, 14]
  opRows 0x00 A .ofFields [.nop, .add, .sub, .and, .or, .xor, .shl, .shr, .sra, .cmp, .min, .max, .mul, .mulhu, .li, .lih] ++
  (0x10, A, fun l t cyc => .rdstamp t (.ofFields l) cyc) ::
  opRows 0x20 B .ofFields [.br, .jr] ++
  opRows 0x30 M .ofFields [.ld, .st, .vld, .vst] ++
  opRows 0x40 V .ofFields [.vadd, .vsub, .vmul, .vfma, .vmin, .vmax, .vcmp, .vsel, .vcvt, .vbcast, .vext] ++
  opRows 0x50 V .ofFields [.vexp2, .vrcp, .vrsqrt, .vsum, .vmaxr, .vpack, .vcomb, .vtopk, .vtopp, .vdraw] ++
  opRows 0x60 [12, 12, 4, 4, 1, 1, 2, 1, 10, 4, 5] .ofFields [.mac, .maca, .tclr, .solder] ++
  opRows 0x70 X .ofFields [.tmov, .dma] ++ opRows 0x80 X .ofFields [.send] ++
  opRows 0x90 [12, 5, 7, 16, 16] .ofFields [.sadd, .arrive, .arrivew, .waitv, .waitg] ++
  opRows 0xA0 X .ofFields [.walk] ++ opRows 0xA1 M .ofFields [.posld] ++
  opRows 0xB0 B .ofFields [.eob, .tstart, .tstop, .fence]

/-- What a row says of the instruction whose fields are the digits of n, and what it should: the bits of its fields, its opcode, word and site. -/
noncomputable def rowSays (n : Nat) (t : Site) (cyc : BitVec 24) (r : OpRow) :=
  let i := r.2.2 (digits n 8 r.2.1) t cyc
  (8 + r.2.1.sum, Nat.blt r.1 256, encodeYiltil i, siteOf i, i.wf, r.2.2 (digits n 8 r.2.1) t (if r.1 = 0x10 then cyc else 0))
noncomputable def rowShould (n : Nat) (t : Site) (cyc : BitVec 24) (r : OpRow) :=
  (64, true, some (w64 (laid r.1 8 (digits n 8 r.2.1))), some (t, if r.1 = 0x10 then cyc else 0), true, r.2.2 (digits n 8 r.2.1) t cyc)

theorem opTable_spec (n : Nat) (t : Site) (cyc : BitVec 24) : opTable.map (rowSays n t cyc) = opTable.map (rowShould n t cyc) := (rfl)

/-- The row of an opcode. -/
noncomputable def opFind (op : Nat) : Option (OpRow) := opTable.find? fun r => Nat.beq r.1 op

theorem opFind_rows : opTable.map (fun r => opFind r.1) = opTable.map some := (rfl)

theorem rowSays_eq {op : Nat} {r : OpRow} (h : opFind op = some r) (n : Nat)
    (t : Site) (cyc : BitVec 24) : op = r.1 ∧ rowSays n t cyc r = rowShould n t cyc r :=
  ⟨(Nat.eq_of_beq_eq_true (List.find?_some (p := fun r : OpRow => Nat.beq r.1 op) h)).symm, List.map_inj_left.mp (opTable_spec n t cyc) r (List.mem_of_find?_eq_some h)⟩

end Sys2Proof
end

section
/-! PROOFS. What an instruction of one thread leaves alone: observations that read nothing of what its issue changes. -/

namespace Sys2Proof.Machine

variable {α : Type} {t : Site}

/-- φ reads neither the program counter of t nor what a fault of t discards or reports. -/
structure IssueFree (t : Site) (φ : State → α) : Prop where
  pc : ∀ u n, φ (u.setPc t n) = φ u
  fault : ∀ u st, φ (u.threadFault t st) = φ u

theorem next_unique {r : Result} {u w : State} (hu : r = .next u) (hw : r = .next w) : u = w := Host.Outcome.next.inj (hu.symm.trans hw)

theorem issue_keeps {φ : State → α} (hφ : IssueFree t φ) {s u : State} {hold seq : Bool} {cs : List (Bool × Status)} {eff : State → State}
    (heff : ∀ w, φ (eff w) = φ w) (h : issue s t hold seq cs eff = .next u) : φ u = φ s := by
  obtain e | ⟨st, e⟩ | e := issue_cases s t hold seq cs eff
  · exact congrArg φ (next_unique h e)
  · exact (congrArg φ (next_unique h e)).trans (hφ.fault s st)
  · exact (congrArg φ (next_unique h e)).trans ((heff _).trans (ite_keeps φ (hφ.pc s _) rfl))

/-! ## A fault of a thread -/

/-- A fault halts the core and reports at most once. -/
theorem State.threadFault_keeps {φ : State → α} (hφ : ∀ u r, φ (State.report u r) = φ u) (s : State) (t : Site) (st : Status) :
    φ (s.threadFault t st) = φ (s.modCore t.core Core.halt) := by
  unfold State.threadFault State.threadFaultAt
  generalize s.vatOf t.core = o
  induction o with
  | none => rfl
  | some v => exact hφ _ _

theorem State.core_threadFault_ne (s : State) (t : Site) (st : Status) {d : CoreId} (h : d ≠ t.core) :
    (s.threadFault t st).core d = s.core d :=
  (State.threadFault_keeps (φ := (·.core d)) (fun _ _ => rfl) s t st).trans (State.core_modCore_ne s Core.halt h)

theorem State.thread_threadFault (s : State) (t x : Site) (st : Status) : (s.threadFault t st).thread x = s.thread x := by
  by_cases h : x.core = t.core
  · exact congrArg (·.thread x.thread) (h ▸ State.core_threadFault_self s t st)
  · exact congrArg (·.thread x.thread) (State.core_threadFault_ne s t st h)

/-! ## The observations of a frame -/

/-- What is read of t's registers and status is free when changing the program counter keeps it. -/
theorem IssueFree.of_thread {p : Thread → α} (h : ∀ k n, p { k with pc := n } = p k) : IssueFree t (fun u => p (u.thread t)) :=
  ⟨fun u _ => (congrArg p (State.thread_modThread_self u t _)).trans (h _ _), fun u _ => congrArg p (State.thread_threadFault u t t _)⟩

/-- The state of a module but for its cores and reports, and of a core but for its threads and what a fault discards: those of s and k instead. -/
noncomputable def State.besides (s u : State) : State := { u with cores := s.cores, reports := s.reports }
noncomputable def Core.besides (k c : Core) : Core := { c with threads := k.threads, halted := k.halted, macWait := k.macWait, dmaQ := k.dmaQ }

/-- A command that keeps whatever changes of t and faults of t keep changes t's core only, and of it no other thread. -/
theorem threadsOnly_of_keeps {s u : State} (h : ∀ {β : Type} (φ : State → β), (∀ w g, φ (State.modThread w t g) = φ w) →
    (∀ w st, φ (State.threadFault w t st) = φ w) → φ u = φ s) : ThreadsOnly t.core s u ∧ ∀ x, x ≠ t → u.thread x = s.thread x := by
  have hother (d : CoreId) (hd : d ≠ t.core) : u.core d = s.core d :=
    h (·.core d) (fun w _ => State.core_modCore_ne w _ hd) (fun w st => State.core_threadFault_ne w t st hd)
  have hcore := h (fun w => (s.core t.core).besides (w.core t.core))
    (fun w _ => (congrArg (s.core t.core).besides (State.core_modCore_self w _ _)).trans rfl)
    (fun w st => (congrArg (s.core t.core).besides (State.core_threadFault_self w t st)).trans rfl)
  refine ⟨⟨h s.besides (fun _ _ => rfl) (fun w st => State.threadFault_keeps (φ := s.besides) (fun _ _ => rfl) w t st), hother, hcore, fun d a => ?_⟩,
    fun x hx => h (·.thread x) (fun w _ => State.thread_modThread_ne w _ hx) (fun w st => State.thread_threadFault w t x st)⟩
  by_cases hd : d = t.core
  · exact hd ▸ congrArg (fun k => memGet k.mem a) hcore
  · exact congrArg (fun k => memGet k.mem a) (hother d hd)

end Sys2Proof.Machine
end

section
namespace Sys2Proof.Machine

/-- NOP and the branches write no register. -/
def writesNoReg (i : Instr) : Bool := i.ctorIdx == 0 || i.ctorIdx == 17 || i.ctorIdx == 18

/-- What a command keeps that writes at most s[d], and with RDSTAMP s[d + 1]. -/
def ScalarKeeps (t : Site) (f : FmtA) (cyc : BitVec 24) (i : Instr) : Prop :=
  ∀ (α : Type) (φ : State → α) (s u : State), IssueFree t φ → (writesNoReg i = false → ∀ w x, φ (State.setS w t f.d x) = φ w) →
    (i = .rdstamp t f cyc → ∀ w x, φ (State.setS w t (f.d + 1) x) = φ w) → exec i s = .next u → φ u = φ s

theorem ScalarKeeps.of_setS {t : Site} {f : FmtA} {cyc : BitVec 24} {i : Instr} (hw : writesNoReg i = false) {cs : State → List (Bool × Status)}
    {x : State → Word64} (he : ∀ s, exec i s = issue s t false true (cs s) (fun u => u.setS t f.d (x s))) : ScalarKeeps t f cyc i :=
  fun _ _ s _ hφ hS _ h => issue_keeps hφ (fun w => hS hw w _) ((he s).symm.trans h)

theorem scalarKeeps (t : Site) (f : FmtA) (g : FmtB) (cyc : BitVec 24) : ∀ i ∈ [Instr.nop t f, .add t f, .sub t f, .and t f, .or t f, .xor t f,
    .shl t f, .shr t f, .sra t f, .cmp t f, .min t f, .max t f, .mul t f, .mulhu t f, .li t f, .lih t f, .rdstamp t f cyc, .br t g, .jr t g],
    ScalarKeeps t f cyc i := by
  refine forall_mem_cons_of (fun _ _ _ _ hφ _ _ h => issue_keeps hφ (fun _ => rfl) h) ?_
  iterate 15 refine forall_mem_cons_of (.of_setS rfl fun _ => rfl) ?_
  refine forall_mem_cons_of (fun _ _ _ _ hφ hS hR h => issue_keeps hφ (fun w => (hR rfl _ _).trans (hS rfl w _)) h) ?_
  refine forall_mem_cons_of (fun _ φ _ _ hφ _ _ h => issue_keeps hφ (fun w => ite_keeps φ (hφ.pc w _) rfl) h) ?_
  exact forall_mem_cons_of (fun _ _ _ _ hφ _ _ h => issue_keeps hφ (fun w => hφ.pc w _) h) (List.forall_mem_nil _)

/-- Settles O4: each is an issue whose effect writes registers or the program counter of its thread. -/
theorem scalarFrame : Obligations.ScalarFrame := by
  intro s u t f g cyc i hi h
  have hkeep {α : Type} (φ : State → α) := scalarKeeps t f g cyc i hi α φ s u
  obtain ⟨honly, hothers⟩ := threadsOnly_of_keeps (t := t) (s := s) (u := u) fun φ hm hf => hkeep φ ⟨fun w _ => hm w _, hf⟩ (fun _ w _ => hm w _) (fun _ w _ => hm w _) h
  have hsreg (w : State) {d r : BitVec 5} (hr : r ≠ d) (x : Word64) : ((w.setS t d x).thread t).sreg r = (w.thread t).sreg r :=
    (congrArg (·.sreg r) (State.thread_modThread_self w t _)).trans (Thread.sreg_setS_ne _ _ hr)
  refine ⟨honly, hothers, fun r hd hr => ?_, fun hno r => ?_, fun r => ?_, ?_⟩
  · exact hkeep (fun u => (u.thread t).sreg r) (.of_thread (p := (·.sreg r)) fun _ _ => rfl) (fun _ w x => hsreg w hd x) (fun hi w x => hsreg w (fun e => hr e hi) x) h
  · have hw : writesNoReg i = true := forall_mem_cons_of (p := (writesNoReg · = true)) rfl (forall_mem_cons_of rfl (forall_mem_cons_of rfl (List.forall_mem_nil _))) i hno
    exact hkeep (fun u => (u.thread t).sreg r) (.of_thread (p := (·.sreg r)) fun _ _ => rfl) (fun e => absurd (hw.symm.trans e) Bool.noConfusion)
      (fun e => absurd (hw.symm.trans (congrArg writesNoReg e)) Bool.noConfusion) h
  · exact hkeep (fun u => (u.thread t).vreg r) (.of_thread (p := (·.vreg r)) fun _ _ => rfl) (fun _ w x => congrArg (·.vreg r) (State.thread_modThread_self w t _))
      (fun _ w x => congrArg (·.vreg r) (State.thread_modThread_self w t _)) h
  · exact hkeep (fun u => (u.thread t).status) (.of_thread (p := Thread.status) fun _ _ => rfl) (fun _ w x => (congrArg Thread.status (State.thread_modThread_self w t _)).trans rfl)
      (fun _ w x => (congrArg Thread.status (State.thread_modThread_self w t _)).trans rfl) h

end Sys2Proof.Machine
end

section
/-! PROOFS. The decoder as a look-up in the opcode map, and the words of all instructions. -/

namespace Sys2Proof

/-- Functions of an opcode that agree on the table of the opcodes, 16 by 16, agree on each. -/
theorem eq_of_ops {α : Type} {f g : Nat → α}
    (h : (List.range 16).map (fun i => (List.range 16).map fun j => f (16 * i + j)) =
      (List.range 16).map (fun i => (List.range 16).map fun j => g (16 * i + j))) : ∀ op, op < 256 → f op = g op := by
  intro op hop
  have hrow := List.map_inj_left.mp h (op / 16) (List.mem_range.mpr (Nat.div_lt_of_lt_mul hop))
  exact Nat.div_add_mod op 16 ▸ List.map_inj_left.mp hrow (op % 16) (List.mem_range.mpr (Nat.mod_lt op (by decide)))

theorem decodeYiltil_eq (t : Site) (cyc : BitVec 24) (w : Word64) :
    decodeYiltil t cyc w = (opFind (w.toNat % 256)).elim (.illegalOpcode t w) fun r => r.2.2 (digits w.toNat 8 r.2.1) t cyc := by
  have hop := Nat.mod_lt w.toNat (show 0 < 256 by decide)
  unfold decodeYiltil
  dsimp only
  generalize w.toNat % 256 = op at hop ⊢
  revert op
  refine eq_of_ops ?_
  rfl

theorem isSome_opFind : ∀ op, op < 256 → (opFind op).isSome = inOpcodeMap op := eq_of_ops (by rfl)

theorem opFind_of_outside {w : Word64} (h : inOpcodeMap (w.toNat % 256) = false) : opFind (w.toNat % 256) = none :=
  Option.isSome_eq_false_iff.mp ((isSome_opFind _ (Nat.mod_lt _ (by decide))).trans h) |> Option.isNone_iff_eq_none.mp

theorem decodeYiltil_of_outside (t : Site) (cyc : BitVec 24) {w : Word64} (h : inOpcodeMap (w.toNat % 256) = false) :
    decodeYiltil t cyc w = .illegalOpcode t w :=
  (decodeYiltil_eq t cyc w).trans (congrArg (Option.elim · _ _) (opFind_of_outside h))

/-- What a word spells is well formed, and its word is that one. -/
theorem encodeYiltil_decodeYiltil (w : Word64) (t : Site) (cyc : BitVec 24) :
    (decodeYiltil t cyc w).wf = true ∧ encodeYiltil (decodeYiltil t cyc w) = some w := by
  rw [decodeYiltil_eq]
  generalize h : opFind (w.toNat % 256) = o
  cases o
  case none => exact ⟨congrArg not ((isSome_opFind _ (Nat.mod_lt _ (by decide))).symm.trans (congrArg Option.isSome h)), rfl⟩
  case some r =>
    obtain ⟨hop, hr⟩ := rowSays_eq h w.toNat t cyc
    exact ⟨congrArg (·.2.2.2.2.1) hr, (congrArg (·.2.2.1) hr).trans (congrArg some (hop ▸ word_of_fields w _ (congrArg (·.1) hr)))⟩

/-- A well-formed instruction that has a word is read back from it. -/
def Instr.RoundTrips (i : Instr) : Prop := (encodeYiltil i).elim True fun w => ∀ (t : Site) (cyc : BitVec 24), i.wf = true →
  siteOf i = some (t, cyc) → decodeYiltil t cyc w = i

theorem Instr.RoundTrips.decode_encode {i : Instr} (h : i.RoundTrips) {w : Word64} {t : Site} {cyc : BitVec 24} (he : encodeYiltil i = some w)
    (hwf : i.wf = true) (ht : siteOf i = some (t, cyc)) : decodeYiltil t cyc w = i := by
  unfold Instr.RoundTrips at h
  rw [he] at h
  exact h t cyc hwf ht

theorem Instr.RoundTrips.of_eqs {i : Instr} {w : Word64} {t : Site} {cyc : BitVec 24} (he : encodeYiltil i = some w)
    (ht : siteOf i = some (t, cyc)) (hd : i.wf = true → decodeYiltil t cyc w = i) : i.RoundTrips := by
  unfold Instr.RoundTrips
  rw [he]
  exact fun u c hwf hu => (congrArg (fun p => decodeYiltil p.1 p.2 w) (Option.some.inj (hu.symm.trans ht))).trans (hd hwf)

/-- The word n of an instruction of the map, whose fields are the digits of n. -/
theorem Instr.RoundTrips.of_digits {op n : Nat} {r : OpRow} (h : opFind op = some r) (hlt : n < 2 ^ 64) (hop : n % 256 = op)
    (hn : laid r.1 8 (digits n 8 r.2.1) = n) (t : Site) (cyc : BitVec 24) : (r.2.2 (digits n 8 r.2.1) t cyc).RoundTrips := by
  have hr := (rowSays_eq h n t cyc).2
  have hw : (w64 n).toNat = n := Nat.mod_eq_of_lt hlt
  refine .of_eqs (w := w64 n) ((congrArg (·.2.2.1) hr).trans (congrArg (fun m => some (w64 m)) hn)) (congrArg (·.2.2.2.1) hr) fun _ => ?_
  rw [decodeYiltil_eq, hw, hop, h]
  exact congrArg (·.2.2.2.2.2) hr

/-- The word of an instruction of the map holds its opcode and its fields as digits. -/
theorem Instr.RoundTrips.of_row {op : Nat} {r : OpRow} (h : opFind op = some r)
    (l : List (Σ w, BitVec w)) (hl : l.map Sigma.fst = r.2.1) (t : Site) (cyc : BitVec 24) : (r.2.2 l t cyc).RoundTrips := by
  obtain ⟨hop, hr⟩ := rowSays_eq h 0 t cyc
  have hsum : 8 + (l.map Sigma.fst).sum = 64 := hl ▸ congrArg (·.1) hr
  obtain ⟨hlt, hmod, hdig⟩ := laid_spec l r.1 8 (Nat.blt_eq.mp (congrArg (·.2.1) hr))
  exact (hl ▸ hdig) ▸ Instr.RoundTrips.of_digits h (hsum ▸ hlt) (hmod.trans hop.symm) (congrArg (laid r.1 8) (hl ▸ hdig)) t cyc

/-- The same, found by its opcode. -/
theorem Instr.RoundTrips.of_op {op : Nat} (h : (opFind op).isSome = true) (l : List (Σ w, BitVec w)) (hl : l.map Sigma.fst = ((opFind op).get h).2.1)
    (t : Site) (cyc : BitVec 24) : (((opFind op).get h).2.2 l t cyc).RoundTrips := .of_row (Option.some_get h).symm l hl t cyc

theorem Instr.roundTrips (i : Instr) : i.RoundTrips := by
  induction i with
  | nop t f => exact .of_op (op := 0x00) rfl f.fields rfl t 0
  | add t f => exact .of_op (op := 0x01) rfl f.fields rfl t 0
  | sub t f => exact .of_op (op := 0x02) rfl f.fields rfl t 0
  | and t f => exact .of_op (op := 0x03) rfl f.fields rfl t 0
  | or t f => exact .of_op (op := 0x04) rfl f.fields rfl t 0
  | xor t f => exact .of_op (op := 0x05) rfl f.fields rfl t 0
  | shl t f => exact .of_op (op := 0x06) rfl f.fields rfl t 0
  | shr t f => exact .of_op (op := 0x07) rfl f.fields rfl t 0
  | sra t f => exact .of_op (op := 0x08) rfl f.fields rfl t 0
  | cmp t f => exact .of_op (op := 0x09) rfl f.fields rfl t 0
  | min t f => exact .of_op (op := 0x0A) rfl f.fields rfl t 0
  | max t f => exact .of_op (op := 0x0B) rfl f.fields rfl t 0
  | mul t f => exact .of_op (op := 0x0C) rfl f.fields rfl t 0
  | mulhu t f => exact .of_op (op := 0x0D) rfl f.fields rfl t 0
  | li t f => exact .of_op (op := 0x0E) rfl f.fields rfl t 0
  | lih t f => exact .of_op (op := 0x0F) rfl f.fields rfl t 0
  | rdstamp t f cyc => exact .of_op (op := 0x10) rfl f.fields rfl t cyc
  | br t f => exact .of_op (op := 0x20) rfl f.fields rfl t 0
  | jr t f => exact .of_op (op := 0x21) rfl f.fields rfl t 0
  | ld t f => exact .of_op (op := 0x30) rfl f.fields rfl t 0
  | st t f => exact .of_op (op := 0x31) rfl f.fields rfl t 0
  | vld t f => exact .of_op (op := 0x32) rfl f.fields rfl t 0
  | vst t f => exact .of_op (op := 0x33) rfl f.fields rfl t 0
  | vadd t f => exact .of_op (op := 0x40) rfl f.fields rfl t 0
  | vsub t f => exact .of_op (op := 0x41) rfl f.fields rfl t 0
  | vmul t f => exact .of_op (op := 0x42) rfl f.fields rfl t 0
  | vfma t f => exact .of_op (op := 0x43) rfl f.fields rfl t 0
  | vmin t f => exact .of_op (op := 0x44) rfl f.fields rfl t 0
  | vmax t f => exact .of_op (op := 0x45) rfl f.fields rfl t 0
  | vcmp t f => exact .of_op (op := 0x46) rfl f.fields rfl t 0
  | vsel t f => exact .of_op (op := 0x47) rfl f.fields rfl t 0
  | vcvt t f => exact .of_op (op := 0x48) rfl f.fields rfl t 0
  | vbcast t f => exact .of_op (op := 0x49) rfl f.fields rfl t 0
  | vext t f => exact .of_op (op := 0x4A) rfl f.fields rfl t 0
  | vexp2 t f => exact .of_op (op := 0x50) rfl f.fields rfl t 0
  | vrcp t f => exact .of_op (op := 0x51) rfl f.fields rfl t 0
  | vrsqrt t f => exact .of_op (op := 0x52) rfl f.fields rfl t 0
  | vsum t f => exact .of_op (op := 0x53) rfl f.fields rfl t 0
  | vmaxr t f => exact .of_op (op := 0x54) rfl f.fields rfl t 0
  | vpack t f => exact .of_op (op := 0x55) rfl f.fields rfl t 0
  | vcomb t f => exact .of_op (op := 0x56) rfl f.fields rfl t 0
  | vtopk t f => exact .of_op (op := 0x57) rfl f.fields rfl t 0
  | vtopp t f => exact .of_op (op := 0x58) rfl f.fields rfl t 0
  | vdraw t f => exact .of_op (op := 0x59) rfl f.fields rfl t 0
  | mac t f => exact .of_op (op := 0x60) rfl f.fields rfl t 0
  | maca t f => exact .of_op (op := 0x61) rfl f.fields rfl t 0
  | tclr t f => exact .of_op (op := 0x62) rfl f.fields rfl t 0
  | solder t f => exact .of_op (op := 0x63) rfl f.fields rfl t 0
  | tmov t f => exact .of_op (op := 0x70) rfl f.fields rfl t 0
  | dma t f => exact .of_op (op := 0x71) rfl f.fields rfl t 0
  | send t f => exact .of_op (op := 0x80) rfl f.fields rfl t 0
  | sadd t f => exact .of_op (op := 0x90) rfl f.fields rfl t 0
  | arrive t f => exact .of_op (op := 0x91) rfl f.fields rfl t 0
  | arrivew t f => exact .of_op (op := 0x92) rfl f.fields rfl t 0
  | waitv t f => exact .of_op (op := 0x93) rfl f.fields rfl t 0
  | waitg t f => exact .of_op (op := 0x94) rfl f.fields rfl t 0
  | walk t f => exact .of_op (op := 0xA0) rfl f.fields rfl t 0
  | posld t f => exact .of_op (op := 0xA1) rfl f.fields rfl t 0
  | eob t f => exact .of_op (op := 0xB0) rfl f.fields rfl t 0
  | tstart t f => exact .of_op (op := 0xB1) rfl f.fields rfl t 0
  | tstop t f => exact .of_op (op := 0xB2) rfl f.fields rfl t 0
  | fence t f => exact .of_op (op := 0xB3) rfl f.fields rfl t 0
  | illegalOpcode t w => exact .of_eqs (w := w) (t := t) (cyc := 0) rfl rfl fun hwf => decodeYiltil_of_outside t 0 ((Bool.not_eq_true' _).mp hwf)
  | _ => exact trivial

end Sys2Proof

namespace Sys2Proof.Machine

/-- Settles O58: the opcode and the fields of an instruction are the digits of its word, so that either gives back the other. -/
theorem instructionWordRoundTrip : Obligations.InstructionWordRoundTrip :=
  ⟨fun i _ _ _ hwf he ht => Instr.RoundTrips.decode_encode i.roundTrips he hwf ht, encodeYiltil_decodeYiltil, fun _ t cyc => decodeYiltil_of_outside t cyc⟩

end Sys2Proof.Machine
end

section
/-! PROOFS. An instruction that issues: what its checks make of it (R198, R201). -/

namespace Sys2Proof.Machine

variable {s : State} {t : Site} {cs : List (Bool × Status)}

/-- One that passes its checks goes on to the next index. -/
theorem issue_ready (h : s.ready t) (hcs : firstFault cs = none) (eff : State → State) :
    issue s t false true cs eff = .next (eff (s.onward t)) :=
  issue_ok s t false true cs eff (congrArg (fun b => !b || false) h.1)
    ((congrArg (fun b => firstFault (cs ++ [(b, .address)])) (decide_eq_false h.2)).trans ((firstFault_append_passed cs .address).trans hcs))

/-- One that does not go on in sequence. -/
theorem issue_jumps (h : s.canIssue t = true) (hcs : firstFault cs = none) (eff : State → State) :
    issue s t false false cs eff = .next (eff s) :=
  issue_ok s t false false cs eff (congrArg (fun b => !b || false) h) ((firstFault_append_passed cs .address).trans hcs)

theorem issue_stops (h : s.canIssue t = true) {st : Status} (hcs : firstFault cs = some st) (eff : State → State) :
    issue s t false false cs eff = .next (s.threadFault t st) :=
  issue_fault s t false false cs eff st (congrArg (fun b => !b || false) h) ((firstFault_append_passed cs .address).trans hcs)

/-- One that would go on in sequence faults with its first fault. -/
theorem issue_faults {hold : Bool} (hh : hold = false) (h : s.ready t) {st : Status} (hcs : firstFault cs = some st) (eff : State → State) :
    issue s t hold true cs eff = .next (s.threadFault t st) :=
  issue_fault s t hold true cs eff st (congrArg₂ (fun a b => !a || b) h.1 hh)
    ((congrArg (fun b => firstFault (cs ++ [(b, .address)])) (decide_eq_false h.2)).trans ((firstFault_append_passed cs .address).trans hcs))

/-- A hold that is not given, or is. -/
theorem issue_onward {hold : Bool} (hh : hold = false) (h : s.ready t) (hcs : firstFault cs = none) (eff : State → State) :
    issue s t hold true cs eff = .next (eff (s.onward t)) := hh ▸ issue_ready h hcs eff

theorem issue_waits {hold : Bool} (hh : hold = true) (seq : Bool) (eff : State → State) : issue s t hold seq cs eff = .next s :=
  issue_held s t hold seq cs eff ((congrArg _ hh).trans (Bool.or_true _))

/-- Checks that pass. -/
theorem firstFault_pass {b : Bool} {st : Status} (hb : b = false) (h : firstFault cs = none) : firstFault ((b, st) :: cs) = none :=
  (firstFault_cons_of_none b st h).trans (if_false_eq hb)

/-- A check that passes leaves the fault behind it; the last that fails is the fault. -/
theorem firstFault_skip {b : Bool} {st x : Status} (hb : b = false) (h : firstFault cs = some x) : firstFault ((b, st) :: cs) = some x :=
  (firstFault_cons_of_some b st h).trans (if_neg fun e => Bool.false_ne_true (hb.symm.trans e.1))

theorem firstFault_fails {b : Bool} {st : Status} (hb : b = true) (h : firstFault cs = none) : firstFault ((b, st) :: cs) = some st :=
  (firstFault_cons_of_none b st h).trans (if_pos hb)

/-- A check of fields used as zero. -/
theorem or_ne_eq_false {α : Type} [DecidableEq α] {b : Bool} {x y : α} (hb : b = false) (h : x = y) : (b || decide (x ≠ y)) = false :=
  Bool.or_eq_false_iff.mpr ⟨hb, decide_eq_false (not_not_intro h)⟩

end Sys2Proof.Machine
end

section
/-! PROOFS. What the scalar instructions and the branches write (R204, R205). -/

namespace Sys2Proof.Machine

/-! ## The operations on words -/

theorem ofInt_toInt_add (a y : Word64) : BitVec.ofInt 64 (a.toInt + y.toInt) = a + y := by
  rw [BitVec.ofInt_add, BitVec.ofInt_toInt, BitVec.ofInt_toInt]

theorem ofInt_toInt_sub (a y : Word64) : BitVec.ofInt 64 (a.toInt - y.toInt) = a - y := by
  rw [Int.sub_eq_add_neg, BitVec.ofInt_add, BitVec.ofInt_neg, BitVec.ofInt_toInt, BitVec.ofInt_toInt, BitVec.sub_eq_add_neg]

theorem ofNat_shiftLeft (a : Word64) (n : Nat) : BitVec.ofNat 64 (a.toNat * 2 ^ n) = a <<< n :=
  BitVec.eq_of_toNat_eq (congrArg (· % 2 ^ 64) (Nat.shiftLeft_eq a.toNat n).symm)

theorem ofNat_shiftRight (a : Word64) (n : Nat) : BitVec.ofNat 64 (a.toNat / 2 ^ n) = a >>> n :=
  BitVec.eq_of_toNat_eq ((Nat.mod_eq_of_lt (lt_of_le_of_lt (Nat.div_le_self _ _) a.isLt)).trans (Nat.shiftRight_eq_div_pow a.toNat n).symm)

theorem ofInt_sshiftRight (a : Word64) (n : Nat) : BitVec.ofInt 64 (a.toInt / 2 ^ n) = a.sshiftRight n :=
  congrArg (BitVec.ofInt 64) ((Int.shiftRight_eq_div_pow a.toInt n).trans (congrArg (a.toInt / ·) (Nat.cast_pow 2 n))).symm

/-- MIN's and MAX's choice. -/
theorem ite_slt {n : Nat} (a y p q : BitVec n) : (if y.slt a then q else p) = if a.toInt ≤ y.toInt then p else q := by
  by_cases h : a.toInt ≤ y.toInt
  · exact (if_neg fun e => absurd (of_decide_eq_true e) (Int.not_lt.mpr h)).trans (if_pos h).symm
  · exact (if_pos (decide_eq_true (Int.not_le.mp h))).trans (if_neg h).symm

theorem max_eq {n : Nat} (a y : BitVec n) : (if a.slt y then y else a) = if a.toInt ≤ y.toInt then y else a := by
  by_cases h : a.slt y = true
  · exact (if_pos h).trans (if_pos (Int.le_of_lt (of_decide_eq_true h))).symm
  · rw [if_neg h]
    by_cases he : a.toInt ≤ y.toInt
    · exact (if_pos he).trans (BitVec.eq_of_toInt_eq (le_antisymm (Int.not_lt.mp fun hl => h (decide_eq_true hl)) he)) |>.symm
    · exact (if_neg he).symm

/-- Settles O2: each is scalarOp at its operation on words. -/
theorem scalarResult : Obligations.ScalarResult := by
  intro s t f hready hfunc hb himm a y n writes
  have hn : n = y.toNat % 64 := BitVec.toNat_setWidth 6 y
  have hop (op : Word64 → Word64 → Word64) {w : Word64} (e : w = op a y) : scalarOp s t f (decide (f.func ≠ 0)) op = writes w :=
    (issue_ready hready (firstFault_pass (or_ne_eq_false (badA_eq_false hb himm) hfunc) rfl) _).trans (congrArg writes e.symm)
  exact ⟨hop (· + ·) (ofInt_toInt_add a y), hop (· - ·) (ofInt_toInt_sub a y), hop (· * ·) (BitVec.eq_of_toNat_eq rfl),
    hop (fun a y => w64 (a.toNat * y.toNat / 2 ^ 64)) rfl, hop (fun a y => if y.slt a then y else a) (ite_slt a y a y).symm,
    hop (fun a y => if a.slt y then y else a) (max_eq a y).symm, hop (· &&& ·) rfl, hop (· ||| ·) rfl, hop (· ^^^ ·) rfl,
    hop (fun a y => a <<< (y.toNat % 64)) ((ofNat_shiftLeft a n).trans (congrArg (a <<< ·) hn)),
    hop (fun a y => a >>> (y.toNat % 64)) ((ofNat_shiftRight a n).trans (congrArg (a >>> ·) hn)),
    hop (fun a y => a.sshiftRight (y.toNat % 64)) ((ofInt_sshiftRight a n).trans (congrArg a.sshiftRight hn))⟩

end Sys2Proof.Machine
end

section
namespace Sys2Proof.Machine

theorem not_decide_eq_true_iff {p q : Prop} [Decidable p] (h : ¬ p ↔ q) : (!decide p) = true ↔ q :=
  (iff_of_eq (Bool.not_eq_true' _)).trans (decide_eq_false_iff_not.trans h)

/-- What the condition codes say (R205). -/
theorem cond64_iff (a y : Word64) : ∀ n, n < 7 → (cond64 n a y = true ↔
    match n with
    | 0 => True
    | 1 => a = y
    | 2 => a ≠ y
    | 3 => a.toInt < y.toInt
    | 4 => y.toInt ≤ a.toInt
    | 5 => a.toNat < y.toNat
    | _ => y.toNat ≤ a.toNat) := by
  suffices h : ∀ n ∈ [0, 1, 2, 3, 4, 5, 6], _ by exact fun n hn => h n (List.mem_range.mpr hn)
  refine forall_mem_cons_of ⟨fun _ => trivial, fun _ => rfl⟩ ?_
  iterate 3 refine forall_mem_cons_of decide_eq_true_iff ?_
  refine forall_mem_cons_of (not_decide_eq_true_iff Int.not_lt) ?_
  refine forall_mem_cons_of decide_eq_true_iff ?_
  exact forall_mem_cons_of (not_decide_eq_true_iff Nat.not_lt) (List.forall_mem_nil _)

theorem badLi_eq_false {f : FmtA} (ha : f.a = 0) (hb : f.b = 0) (hi : f.i = 0) (hfunc : f.func = 0) : badLi f = false :=
  or_ne_eq_false (or_ne_eq_false (or_ne_eq_false (decide_eq_false (not_not_intro ha)) hb) hi) hfunc

/-- LIH's word: the immediate above the old low half. -/
theorem append_setWidth_eq (imm : BitVec 32) (w : Word64) :
    imm ++ w.setWidth 32 = BitVec.ofNat 64 (imm.toNat * 2 ^ 32 + w.toNat % 2 ^ 32) := by
  have h : (imm ++ w.setWidth 32).toNat = imm.toNat * 2 ^ 32 + w.toNat % 2 ^ 32 := by
    rw [BitVec.toNat_append, BitVec.toNat_setWidth, ← Nat.shiftLeft_add_eq_or_of_lt (Nat.mod_lt _ (Nat.two_pow_pos 32)), Nat.shiftLeft_eq]
  exact (BitVec.ofNat_toNat 64 _).symm.trans (congrArg (BitVec.ofNat 64) h) |> (BitVec.setWidth_eq _).symm.trans

/-- Settles O3. -/
theorem compareConstantsBranch : Obligations.CompareConstantsBranch := by
  refine ⟨fun s t f cyc hready => ?_, fun s t f hi hthread hrsv => ?_⟩
  · intro a y holds
    refine ⟨fun hb himm hfunc => ?_, fun ha hb hi hfunc => ?_, (exec_nop_eq s t {}).trans (issue_ready hready rfl _)⟩
    · have hcond : cond64 f.func.toNat a y = true ↔ holds := cond64_iff a y _ (Nat.lt_succ_of_le hfunc)
      exact ⟨_, (exec_cmp_eq s t f).trans (issue_ready hready (firstFault_pass
          (Bool.or_eq_false_iff.mpr ⟨badA_eq_false hb himm, decide_eq_false (Nat.not_le_of_lt (Nat.lt_succ_of_le hfunc))⟩) rfl) _),
        fun h => if_pos (hcond.mpr h), fun h => if_neg fun hc => h (hcond.mp hc)⟩
    · have hbad := badLi_eq_false ha hb hi hfunc
      exact ⟨issue_ready hready (firstFault_pass hbad rfl) (fun u => u.setS t f.d (sext32 f.imm)),
        (issue_ready hready (firstFault_pass hbad rfl) (fun u => u.setS t f.d (f.imm ++ ((s.thread t).sreg f.d).setWidth 32))).trans (congrArg (fun w => Host.Outcome.next ((s.onward t).setS t f.d w)) (append_setWidth_eq _ _)),
        fun himm hd => (exec_rdstamp_eq s t f cyc).trans (issue_ready hready (firstFault_pass (Bool.or_eq_false_iff.mpr ⟨or_ne_eq_false hbad himm, decide_eq_false hd⟩) rfl) _)⟩
  · intro a b pc holds
    refine ⟨fun h7 hzero => ?_, fun hb hcond htarget => ?_⟩
    · have hcond : cond64 f.cond.toNat a b = true ↔ holds :=
        cond64_iff a b _ (Nat.lt_of_le_of_ne (Nat.le_of_lt_succ f.cond.isLt) fun h => h7 (BitVec.eq_of_toNat_eq h))
      have hill : (decide (f.cond = 7) || decide (f.thread ≠ 0) || decide (f.rsv ≠ 0) ||
          (decide (f.cond = 0) && (decide (f.a ≠ 0) || decide (f.b ≠ 0)))) = false :=
        Bool.or_eq_false_iff.mpr ⟨or_ne_eq_false (or_ne_eq_false (decide_eq_false h7) hthread) hrsv, by
          by_cases h0 : f.cond = 0
          · exact (congrArg _ (or_ne_eq_false (decide_eq_false (not_not_intro (hzero h0).1)) (hzero h0).2)).trans (Bool.and_false _)
          · exact congrArg (· && _) (decide_eq_false h0)⟩
      have htgt (taken : Bool) (h : cond64 f.cond.toNat a b = taken) : exec (.br t f) s = issue s t false (!taken)
          [(false, .illegal), (taken && (decide ((pc : Int) + f.target.toInt < 0) || decide (2047 < (pc : Int) + f.target.toInt)), .address)]
          (fun u => if taken = true then u.setPc t ((pc : Int) + f.target.toInt).toNat else u) := by
        change execBr t f s = _
        unfold execBr branchTarget
        rw [hill, ← h]
      refine ⟨fun h hlo hhi => ?_, fun h hout => ?_, fun h hpc => ?_⟩
      · exact (htgt true (hcond.mpr h)).trans (issue_jumps hi (firstFault_pass rfl (firstFault_pass
          (Bool.or_eq_false_iff.mpr ⟨decide_eq_false (Int.not_lt.mpr hlo), decide_eq_false (Int.not_lt.mpr hhi)⟩) rfl)) _)
      · exact (htgt true (hcond.mpr h)).trans (issue_stops hi (firstFault_skip rfl (firstFault_fails
          ((Bool.or_eq_true _ _).mpr (hout.imp decide_eq_true decide_eq_true)) rfl)) _)
      · exact (htgt false (Bool.eq_false_iff.mpr fun hc => h (hcond.mp hc))).trans (issue_ready ⟨hi, hpc⟩ rfl _)
    · have hill : (decide (f.b ≠ 0) || decide (f.cond ≠ 0) || decide (f.thread ≠ 0) || decide (f.rsv ≠ 0) || decide (f.target ≠ 0)) = false :=
        or_ne_eq_false (or_ne_eq_false (or_ne_eq_false (or_ne_eq_false (decide_eq_false (not_not_intro hb)) hcond) hthread) hrsv) htarget
      exact ⟨fun h => issue_jumps hi (firstFault_pass hill (firstFault_pass (decide_eq_false (Nat.not_le_of_lt h)) rfl)) (fun u => u.setPc t a.toNat),
        fun h => issue_stops hi (firstFault_skip hill (firstFault_fails (decide_eq_true h) rfl)) (fun u => u.setPc t a.toNat)⟩

end Sys2Proof.Machine
end

section
/-! PROOFS. What the control instructions of a thread do (R200, R203). -/

namespace Sys2Proof.Machine

theorem fenceMet_iff (k : Core) (t : Fin 16) : fenceMet k t = true ↔ (∀ j, (k.macRun = some j ∨ k.macWait = some j) → j.thread ≠ t) ∧
    (∀ m ∈ k.moves, m.thread ≠ t) ∧ (k.thread t).undelivered = 0 := by
  unfold fenceMet Core.jobs
  rw [Bool.and_eq_true, Bool.and_eq_true, decide_eq_true_eq, and_assoc, List.all_eq_true, List.all_eq_true]
  refine and_congr (forall_congr' fun j => ?_) (and_congr_left' (forall₂_congr fun m _ => decide_eq_true_iff))
  rw [List.mem_append, Option.mem_toList, Option.mem_toList]
  exact imp_congr_right fun _ => decide_eq_true_iff

/-- Settles O23. -/
theorem threadControlResult : Obligations.ThreadControlResult := by
  intro s t f h k
  refine ⟨fun hpc => ⟨issue_ready ⟨h, hpc⟩ rfl fun u => u.modThread t fun h => { h with status := .eob, solder := none }, fun hmet => ?_, fun hmet => ?_,
    fun ha hc hr hne ht => ?_⟩, issue_jumps (cs := [(decide (({} : FmtB) ≠ {}), .illegal)]) h rfl fun u => u.setStatus t .idle, fun w hw => ?_, fenceMet_iff _ _⟩
  · exact issue_onward (congrArg not hmet) ⟨h, hpc⟩ rfl fun u => u
  · exact issue_waits (congrArg not hmet) true fun u => u
  · have hself : decide ((⟨f.thread.toNat, f.thread.isLt⟩ : Fin 16) = t.thread) = false := decide_eq_false fun e => hne (congrArg Fin.val e)
    intro x
    refine ⟨fun hidle => ?_, fun hidle => ?_⟩
    · exact issue_onward ((congrArg _ (decide_eq_false (not_not_intro hidle))).trans (Bool.and_false _)) ⟨h, hpc⟩
        (firstFault_pass (Bool.or_eq_false_iff.mpr ⟨or_ne_eq_false (or_ne_eq_false (decide_eq_false (not_not_intro ha)) hc) hr, hself⟩)
          (firstFault_pass (decide_eq_false (Nat.not_lt_of_le (Nat.le_of_lt_succ ht))) rfl))
        fun u => u.modThread x fun h => { (h.setS 0 ((s.thread t).sreg f.b)) with status := .ready, pc := f.target.toNat }
    · exact issue_waits ((Bool.and_eq_true _ _).mpr ⟨congrArg not hself, decide_eq_true hidle⟩) true
        fun u => u.modThread x fun h => { (h.setS 0 ((s.thread t).sreg f.b)) with status := .ready, pc := f.target.toNat }
  · exact issue_fault s t _ true [(true, .illegal)] (fun u => u) .illegal ((congrArg₂ (fun a b => !a || b) h hw).trans rfl)
      (by by_cases hpc : (s.thread t).pc = 2047 <;> [rw [decide_eq_true hpc]; rw [decide_eq_false hpc]] <;> rfl)

end Sys2Proof.Machine
end

section
/-! PROOFS. What the short vector instructions write, lane by lane (R208). -/

namespace Sys2Proof.Machine

theorem lanes_length (g : Nat → Word32) : (lanes g).length = 64 :=
  (List.length_map _).trans ((congrArg List.length (upTo_eq_range 64)).trans List.length_range)

theorem lane_lanes (g : Nat → Word32) {i : Nat} (h : i < 64) : lane (lanes g) i = g i := by
  unfold lane lanes
  rw [upTo_eq_range, List.getD_eq_getElem?_getD, List.getElem?_map, List.getElem?_range h]
  rfl

theorem lane_replicate (w : Word32) {i : Nat} (h : i < 64) : lane (List.replicate 64 w) i = w := List.getD_replicate _ h

/-- The second operand of a vector instruction, lane by lane. -/
theorem lane_vbOf (h : Thread) (f : FmtV) {i : Nat} (hi : i < 64) :
    lane (vbOf h f) i = if f.sb = 1 then (h.sreg f.s).setWidth 32 else lane (h.vreg f.vb) i :=
  (apply_ite (lane · i) (f.sb = 1) _ _).trans (if_congr Iff.rfl (lane_replicate _ hi) rfl)

theorem badFmtV_eq_false {f : FmtV} (h : f.fmt = 0xD ∨ f.fmt = 0xE) : badFmtV f = false :=
  (Bool.and_eq_false_iff).mpr (h.imp (fun e => decide_eq_false (not_not_intro e)) fun e => decide_eq_false (not_not_intro e))

theorem badFmtV_eq_true {f : FmtV} (hd : f.fmt ≠ 0xD) (he : f.fmt ≠ 0xE) : badFmtV f = true :=
  (Bool.and_eq_true _ _).mpr ⟨decide_eq_true hd, decide_eq_true he⟩

theorem badRsvV_eq_false {f : FmtV} (h1 : f.rsv1 = 0) (h2 : f.rsv2 = 0) : badRsvV f = false :=
  or_ne_eq_false (decide_eq_false (not_not_intro h1)) h2

theorem and_ne_eq_false {α : Type} [DecidableEq α] {p : Prop} [Decidable p] {x y : α} (h : p → x = y) : (decide p && decide (x ≠ y)) = false := by
  by_cases hp : p
  · exact (congrArg _ (decide_eq_false (not_not_intro (h hp)))).trans (Bool.and_false _)
  · exact congrArg (· && _) (decide_eq_false hp)

theorem badV_eq_false {f : FmtV} (h1 : f.rsv1 = 0) (h2 : f.rsv2 = 0) (hb : f.sb = 1 → f.vb = 0) (hs : f.sb = 0 → f.s = 0) :
    (badRsvV f || badSb f) = false :=
  Bool.or_eq_false_iff.mpr ⟨badRsvV_eq_false h1 h2, Bool.or_eq_false_iff.mpr ⟨and_ne_eq_false hb, and_ne_eq_false hs⟩⟩

/-- An instruction that writes lanes in FP32 or INT32, and faults with FORMAT in any other format. -/
theorem issue_lanes {s : State} {t : Site} {f : FmtV} (h : s.ready t) {ill : Bool} (hill : ill = false) {g fp int : Nat → Word32}
    (hg : ∀ i, i < 64 → g i = if f.fmt = 0xD then fp i else int i) :
    (f.fmt = 0xD ∨ f.fmt = 0xE → ∃ w, issue s t false true [(ill, .illegal), (badFmtV f, .format)] (fun u => u.setV t f.vd (lanes g)) =
      .next ((s.onward t).setV t f.vd w) ∧ w.length = 64 ∧ ∀ i, i < 64 → lane w i = if f.fmt = 0xD then fp i else int i) ∧
    (f.fmt ≠ 0xD → f.fmt ≠ 0xE → issue s t false true [(ill, .illegal), (badFmtV f, .format)] (fun u => u.setV t f.vd (lanes g)) =
      .next (s.threadFault t .format)) :=
  ⟨fun hf => ⟨_, issue_ready h (firstFault_pass hill (firstFault_pass (badFmtV_eq_false hf) rfl)) _, lanes_length g,
    fun i hi => (lane_lanes g hi).trans (hg i hi)⟩,
    fun hd he => issue_faults rfl h (firstFault_skip hill (firstFault_fails (badFmtV_eq_true hd he) rfl)) _⟩

/-- Settles O10: each writes lanes by its operation; the checks it makes are on its fields and its format. -/
theorem vectorLaneResult : Obligations.VectorLaneResult := by
  intro s t f hready h1 h2 hvb hs hfunc h a b c writes
  have hill := or_ne_eq_false (badV_eq_false h1 h2 hvb hs) hfunc
  have hb {i : Nat} (hi : i < 64) : lane (vbOf h f) i = b i := lane_vbOf h f hi
  refine ⟨fun hvc => ?_, ?_, ?_⟩
  · have hbin {x : Instr} (fp int : Word32 → Word32 → Word32) {int' : Nat → Word32} (hx : exec x s = vecBin s t f fp int)
        (hi' : ∀ i, int (a i) (b i) = int' i) : writes x (fun i => fp (a i) (b i)) int' := by
      unfold writes
      rw [hx]
      refine issue_lanes hready (or_ne_eq_false (or_ne_eq_false (badV_eq_false h1 h2 hvb hs) hvc) hfunc) fun i hi => ?_
      rw [hb hi, ← hi']
      exact (apply_ite (fun g : Word32 → Word32 → Word32 => g (a i) (b i)) _ _ _).trans (if_congr decide_eq_true_iff rfl rfl)
    exact ⟨hbin add32 (· + ·) rfl fun _ => rfl, hbin sub32 (· - ·) rfl fun _ => rfl, hbin mul32 (· * ·) rfl fun _ => rfl,
      hbin min32 (fun a b => if b.slt a then b else a) rfl fun i => ite_slt _ _ _ _, hbin max32 (fun a b => if a.slt b then b else a) rfl fun i => max_eq _ _⟩
  · refine issue_lanes hready hill fun i hi => ?_
    rw [hb hi]
    exact if_congr decide_eq_true_iff rfl rfl
  · refine issue_lanes hready hill fun i hi => ?_
    rw [hb hi, ite_self]

end Sys2Proof.Machine
end

section
namespace Sys2Proof.Machine

/-- The reductions into s[S], and the instructions with a second destination. -/
def toScalar (t : Site) (f : FmtV) : List Instr := [.vext t f, .vsum t f, .vmaxr t f]
def toVc (t : Site) (f : FmtV) : List Instr := [.vpack t f, .vtopk t f, .vtopp t f]
def toPair (t : Site) (f : FmtV) : List Instr := [.vcomb t f, .vtopk t f]

/-- An effect that writes at most the destinations of a vector instruction. -/
def VectorWrites (t : Site) (f : FmtV) (i : Instr) (eff : State → State) : Prop :=
  ∀ (α : Type) (φ : State → α) (w : State), (i ∈ toScalar t f → ∀ w x, φ (State.setS w t f.s x) = φ w) →
    (i ∉ toScalar t f → ∀ w x, φ (State.setV w t f.vd x) = φ w) → (i ∈ toVc t f → ∀ w x, φ (State.setV w t f.vc x) = φ w) →
    (i ∈ toPair t f → ∀ w x, φ (State.setV w t (f.vd + 1) x) = φ w) → (i = .vtopk t f → ∀ w x, φ (State.setV w t (f.vc + 1) x) = φ w) →
    φ (eff w) = φ w

theorem not_mem_of_ctorIdx {i : Instr} {l : List Instr} (h : (l.map Instr.ctorIdx).contains i.ctorIdx = false) : i ∉ l :=
  fun hi => Bool.false_ne_true (h.symm.trans (List.contains_iff_mem.mpr (List.mem_map_of_mem hi)))

theorem VectorWrites.setV {t : Site} {f : FmtV} {i : Instr} (hi : ((toScalar t f).map Instr.ctorIdx).contains i.ctorIdx = false) (x : List Word32) :
    VectorWrites t f i (fun u => u.setV t f.vd x) := fun _ _ w _ hV _ _ _ => hV (not_mem_of_ctorIdx hi) w _

/-- An instruction issues an effect that writes at most its destinations. -/
def IssuesVector (t : Site) (f : FmtV) (i : Instr) : Prop :=
  ∀ s, ∃ cs eff, exec i s = issue s t false true cs eff ∧ VectorWrites t f i eff

theorem IssuesVector.of {t : Site} {f : FmtV} {i : Instr} {cs : State → List (Bool × Status)} {eff : State → State → State}
    (he : ∀ s, exec i s = issue s t false true (cs s) (eff s)) (hw : ∀ s, VectorWrites t f i (eff s)) : IssuesVector t f i :=
  fun s => ⟨cs s, eff s, he s, hw s⟩

theorem issuesVector (t : Site) (f : FmtV) : ∀ i ∈ [Instr.vadd t f, .vsub t f, .vmul t f, .vfma t f, .vmin t f, .vmax t f, .vcmp t f, .vsel t f,
    .vcvt t f, .vbcast t f, .vext t f, .vexp2 t f, .vrcp t f, .vrsqrt t f, .vsum t f, .vmaxr t f, .vpack t f, .vcomb t f, .vtopk t f, .vtopp t f,
    .vdraw t f], IssuesVector t f i := by
  iterate 10 refine forall_mem_cons_of (.of (eff := fun _ u => u.setV t f.vd _) (fun _ => rfl) fun _ => .setV rfl _) ?_
  refine forall_mem_cons_of (.of (eff := fun _ u => u.setS t f.s _) (fun _ => rfl) fun _ _ _ w hS _ _ _ _ => hS (.head _) w _) ?_
  iterate 3 refine forall_mem_cons_of (.of (eff := fun _ u => u.setV t f.vd _) (fun _ => rfl) fun _ => .setV rfl _) ?_
  refine forall_mem_cons_of (.of (eff := fun _ u => u.setS t f.s _) (fun _ => rfl) fun _ _ _ w hS _ _ _ _ => hS (.tail _ (.head _)) w _) ?_
  refine forall_mem_cons_of (.of (eff := fun _ u => u.setS t f.s _) (fun _ => rfl) fun _ _ _ w hS _ _ _ _ => hS (.tail _ (.tail _ (.head _))) w _) ?_
  refine forall_mem_cons_of (.of (eff := fun _ u => (u.setV t f.vd _).setV t f.vc _) (fun _ => rfl) fun _ _ _ w _ hV hC _ _ => (hC (.head _) _ _).trans (hV (not_mem_of_ctorIdx rfl) w _)) ?_
  refine forall_mem_cons_of (.of (eff := fun _ u => (u.setV t f.vd _).setV t (f.vd + 1) _) (fun _ => rfl) fun _ _ _ w _ hV _ hP _ => (hP (.head _) _ _).trans (hV (not_mem_of_ctorIdx rfl) w _)) ?_
  refine forall_mem_cons_of (fun s => ⟨_, _, show execVtopk t f s = _ by unfold execVtopk; rfl, fun _ _ w _ hV hC hP hK => (hK rfl _ _).trans
    ((hC (.tail _ (.head _)) _ _).trans ((hP (.tail _ (.head _)) _ _).trans (hV (not_mem_of_ctorIdx rfl) w _)))⟩) ?_
  refine forall_mem_cons_of (.of (eff := fun _ u => (u.setV t f.vd _).setV t f.vc _) (fun _ => rfl) fun _ _ _ w _ hV hC _ _ =>
    (hC (.tail _ (.tail _ (.head _))) _ _).trans (hV (not_mem_of_ctorIdx rfl) w _)) ?_
  exact forall_mem_cons_of (.of (eff := fun _ u => u.setV t f.vd _) (fun _ => rfl) fun _ => .setV rfl _) (List.forall_mem_nil _)

/-- Settles O15: each is an issue whose effect writes its destinations. -/
theorem vectorFrame : Obligations.VectorFrame := by
  intro s u t f i hi h
  obtain ⟨cs, eff, he, hw⟩ := issuesVector t f i hi s
  have hkeep {α : Type} (φ : State → α) (hφ : IssueFree t φ) hS hV hC hP hK : φ u = φ s :=
    issue_keeps hφ (fun w => hw α φ w hS hV hC hP hK) (he.symm.trans h)
  obtain ⟨honly, hothers⟩ := threadsOnly_of_keeps (t := t) (s := s) (u := u) fun φ hm hf =>
    hkeep φ ⟨fun w _ => hm w _, hf⟩ (fun _ w _ => hm w _) (fun _ w _ => hm w _) (fun _ w _ => hm w _) (fun _ w _ => hm w _) (fun _ w _ => hm w _)
  have hsreg (w : State) (r : BitVec 5) (d : BitVec 3) (x : List Word32) : ((w.setV t d x).thread t).sreg r = (w.thread t).sreg r :=
    congrArg (·.sreg r) (State.thread_modThread_self w t _)
  have hvreg (w : State) {r d : BitVec 3} (hr : r ≠ d) (x : List Word32) : ((w.setV t d x).thread t).vreg r = (w.thread t).vreg r :=
    (congrArg (·.vreg r) (State.thread_modThread_self w t _)).trans (Thread.vreg_setV_ne _ _ hr)
  refine ⟨honly, hothers, fun r hr => ?_, fun r hd hc hp hk => ?_⟩
  · exact hkeep (fun u => (u.thread t).sreg r) (.of_thread (p := (·.sreg r)) fun _ _ => rfl)
      (fun hi w x => (congrArg (·.sreg r) (State.thread_modThread_self w t _)).trans (Thread.sreg_setS_ne _ _ fun e => hr e hi))
      (fun _ w x => hsreg w r _ x) (fun _ w x => hsreg w r _ x) (fun _ w x => hsreg w r _ x) (fun _ w x => hsreg w r _ x)
  · exact hkeep (fun u => (u.thread t).vreg r) (.of_thread (p := (·.vreg r)) fun _ _ => rfl)
      (fun _ w x => congrArg (·.vreg r) (State.thread_modThread_self w t _)) (fun hi w x => hvreg w (fun e => hi (hd e)) x)
      (fun hi w x => hvreg w (fun e => hc e hi) x) (fun hi w x => hvreg w (fun e => hp e hi) x) (fun hi w x => hvreg w (fun e => hk e hi) x)

end Sys2Proof.Machine
end

section
/-! PROOFS. The shutdown sequence: what flushing the mirrors and clearing the queues keep (R303, R353). -/

namespace Sys2Proof.Machine

theorem foldl_keeps_mem {α β γ : Type} {φ : α → γ} {f : α → β → α} (l : List β) : (∀ x ∈ l, ∀ u, φ (f u x) = φ u) → ∀ s, φ (l.foldl f s) = φ s := by
  induction l with
  | nil => exact fun _ _ => rfl
  | cons x l ih => exact fun hf s => (ih (fun y hy => hf y (List.mem_cons_of_mem x hy)) (f s x)).trans (hf x List.mem_cons_self s)

theorem foldl_keeps {α β γ : Type} {φ : α → γ} {f : α → β → α} (hf : ∀ u x, φ (f u x) = φ u) (l : List β) (s : α) : φ (l.foldl f s) = φ s :=
  foldl_keeps_mem l (fun x _ u => hf u x) s

theorem State.transmit_keeps {α : Type} {φ : State → α} (h : ∀ u l f, φ (State.modLink u l f) = φ u) (s : State) (l : LinkId) (p : Packet) :
    φ (s.transmit l p) = φ s :=
  have hc (u : State) (n : Nat) : φ (u.countCells l n) = φ u := (ite_keeps φ (h _ l _) rfl).trans (h u l _)
  (hc _ _).trans ((h _ l _).trans (h s l _))

/-- What is no link and no schedule is kept when the waiting records go out. -/
theorem State.flushMirrors_keeps {α : Type} {φ : State → α} (hs : ∀ u x, φ { u with scheds := x } = φ u) (hl : ∀ u l f, φ (State.modLink u l f) = φ u)
    (s : State) : φ s.flushMirrors = φ s :=
  foldl_keeps (fun _ l => foldl_keeps (fun w _ => (foldl_keeps (fun y x => by
    cases x with
    | packet p => exact ite_keeps φ (y.transmit_keeps hl l p) rfl
    | _ => rfl) _ _).trans (hs w _)) _ _) _ _

theorem State.cores_beginShutdown (s : State) (tell : Bool) : (s.beginShutdown tell).cores = s.cores :=
  (foldl_keeps (φ := State.cores) (f := fun u r => u.putR (.pwrRegion r) 15 15 0) (fun _ _ => rfl) _ _).trans
    (s.flushMirrors_keeps (φ := State.cores) (fun _ _ => rfl) fun _ _ _ => rfl)

theorem State.modState_setMod (s : State) {n : Nat} (h : n < 8) : (s.setMod n).modState = n :=
  (s.rfld_putR_self .pwrState n (by decide) (by decide)).trans (Nat.mod_eq_of_lt h)

theorem State.wakes_beginShutdown (s : State) (tell : Bool) (h : Half) : (s.beginShutdown tell).wakes h = [] := by
  cases h
  · exact foldl_keeps (φ := fun u : State => u.pow.wakeNorth) (f := fun u r => u.putR (.pwrRegion r) 15 15 0) (fun _ _ => rfl) _ _
  · exact foldl_keeps (φ := fun u : State => u.pow.wakeSouth) (f := fun u r => u.putR (.pwrRegion r) 15 15 0) (fun _ _ => rfl) _ _

theorem mem_finsFrom {n : Nat} (i : Fin n) : ∀ k, n ≤ i.val + k → k ≤ n → i ∈ finsFrom n k := by
  intro k
  induction k with
  | zero => exact fun h _ => absurd i.isLt (Nat.not_lt.mpr h)
  | succ k ih =>
    intro h hk
    have e : finsFrom n (k + 1) = ⟨n - (k + 1), _⟩ :: finsFrom n k := dif_pos (Nat.sub_lt (Nat.lt_of_lt_of_le (Nat.succ_pos k) hk) (Nat.succ_pos k))
    rw [e]
    by_cases hi : n ≤ i.val + k
    · exact List.mem_cons_of_mem _ (ih hi (Nat.le_of_succ_le hk))
    · refine List.mem_cons.mpr (.inl (Fin.ext ?_))
      exact ((Nat.sub_eq_iff_eq_add hk).mpr (Nat.le_antisymm h (Nat.not_le.mp hi))).symm

theorem mem_allFin {n : Nat} (i : Fin n) : i ∈ allFin n := mem_finsFrom i n (Nat.le_add_left n i.val) le_rfl

end Sys2Proof.Machine
end

section
/-! PROOFS. SMBus commands, the alert and the test header (R382 to R388, R393). -/

namespace Sys2Proof.Machine

/-- A fold whose step is never below what it sees ends at a greatest. -/
theorem le_foldl_of_le {α : Type} {f : α → Nat} {g : α → α → α} (h : ∀ a r, f a ≤ f (g a r) ∧ f r ≤ f (g a r)) (l : List α) :
    ∀ a, f a ≤ f (l.foldl g a) ∧ ∀ r ∈ l, f r ≤ f (l.foldl g a) := by
  induction l with
  | nil => exact fun a => ⟨Nat.le_refl _, List.forall_mem_nil _⟩
  | cons x l ih =>
    intro a
    obtain ⟨hg, hl⟩ := ih (g a x)
    exact ⟨Nat.le_trans (h a x).1 hg, forall_mem_cons_of (Nat.le_trans (h a x).2 hg) hl⟩

theorem State.tempOf_le_warmest (s : State) (r : Region) : s.tempOf r ≤ s.tempOf s.warmest := by
  refine (le_foldl_of_le (fun a r => ?_) (allFin 192) 0).2 r (mem_allFin r)
  split
  · exact ⟨Nat.le_of_lt ‹_›, Nat.le_refl _⟩
  · exact ⟨Nat.le_refl _, Nat.le_of_not_lt ‹_›⟩

/-- Settles O50. -/
theorem managementCommands : Obligations.ManagementCommands := by
  refine ⟨fun s hw => ⟨congrArg _ (if_pos hw), ⟨_, s.tempOf_le_warmest, congrArg _ (if_pos hw)⟩, fun off r hr => ?_, fun i => congrArg _ (if_pos hw),
    fun hfree => ?_, fun b hb => ⟨if_false_eq ?_, if_false_eq ?_⟩, fun hserv => ?_, fun bs hbs => ?_, ⟨_, if_pos hw, Bool.or_true _, rfl⟩⟩, fun s hw => ?_,
    fun s op cells => ⟨fun h => ?_, fun h0 h1 h7 => ?_⟩⟩
  · show execReadReg off s = _
    unfold execReadReg
    rw [hr]
    exact congrArg _ (if_pos hw)
  · refine ⟨_, (if_pos (by rw [hw]; rfl)).trans (congrArg _ (if_false_eq (by rw [hfree]; rfl))), rfl, ?_⟩
    exact ite_keeps State.regs (s.flushMirrors_keeps (φ := State.regs) (fun _ _ => rfl) fun _ _ _ => rfl) rfl
  · rw [decide_eq_false hb, Bool.and_false]
  · rw [decide_eq_false hb, Bool.and_false, Bool.false_and]
  · exact ⟨_, if_pos (by rw [hw, hserv]; rfl), State.modState_setMod _ (by decide), s.wakes_beginShutdown true, s.cores_beginShutdown true⟩
  · have hp : (!s.wardenAnswers || decide (255 < bs.length)) = false := by rw [hw, decide_eq_false (Nat.not_lt.mpr hbs)]; rfl
    refine ⟨⟨_, if_false_eq hp, rfl, rfl⟩, ⟨_, if_false_eq hp, rfl, ?_, State.rfld_putR_bit _ _ (by decide) _⟩⟩
    exact (State.rfld_putR_below _ _ _ (by decide) (by decide) (by decide) (by decide)).trans (State.rfld_putR_self _ _ _ (by decide) (by decide))
  · have hw : ¬ s.wardenAnswers = true := hw ▸ Bool.false_ne_true
    exact ⟨congrArg _ (if_neg hw), congrArg _ (if_neg hw), fun i => congrArg _ (if_neg hw), fun b => if_neg fun h => hw (Bool.and_eq_true_iff.mp h).1⟩
  · exact ⟨_, if_pos (Bool.or_eq_true_iff.mpr ((or_assoc.mpr h).imp
      (fun h => Bool.or_eq_true_iff.mpr (h.imp decide_eq_true decide_eq_true)) decide_eq_true)), rfl, fun hop => if_neg hop, rfl⟩
  · exact ⟨_, if_false_eq (by rw [decide_eq_false h0, decide_eq_false h1, decide_eq_false h7]; rfl), rfl, rfl, rfl⟩

end Sys2Proof.Machine
end

section
/-! PROOFS. Thermal windows, throttling and stretching (R374 to R376). -/

namespace Sys2Proof.Machine

section
variable {α : Type} {f : State → α} (hr : ∀ u r hi lo v, f (State.putR u (.thermRegion r) hi lo v) = f u)
  (he : ∀ u a b c d, f (State.logEvent u a b c d) = f u)
include hr he

/-- The end of a window: THROTTLED refreshed and the windows counted. -/
theorem State.windowEnd_keeps (hc : ∀ u, f (State.countWindow u) = f u) (l : List Region) (s : State) : f (l.foldl State.refreshThrottled s).countWindow = f s :=
  (hc _).trans (foldl_keeps (fun _ _ => ite_keeps f rfl ((he ..).trans (hr ..))) _ _)

theorem State.noteReading_keeps (hw : ∀ u q hi lo v, f (State.putR u (.thermWarm q) hi lo v) = f u) (s : State) (inlet : Nat) (x : ThermReading) :
    f (s.noteReading inlet x) = f s :=
  have h (n m k : Nat) : f (((s.putR (.thermRegion x.region) 7 0 n).putR (.thermRegion x.region) 15 8 m).setWarm x.region k) = f s :=
    (hw ..).trans ((hr ..).trans (hr ..))
  ite_keeps f ((he ..).trans (h ..)) (h ..)

end

theorem State.regulate_keeps {α : Type} {f : State → α} (hl : ∀ u r n, f (State.setLimit u r n) = f u)
    (h7 : ∀ u n, f (State.putR u .thermStatus 7 0 n) = f u) (h47 : ∀ u n, f (State.putR u .thermStatus 47 32 n) = f u) (s : State) : f s.regulate = f s := by
  unfold State.regulate
  generalize s.hottest = o
  obtain _ | h := o
  · rfl
  · exact (foldl_keeps (fun _ _ => ite_keeps f (hl ..) rfl) _ _).trans ((h7 ..).trans (ite_keeps f ((h47 ..).trans (hl ..)) rfl))

/-- What a window leaves of the state in which the coolant was noted. -/
theorem State.window_keeps {α : Type} {f : State → α} (hr : ∀ u r hi lo v, f (State.putR u (.thermRegion r) hi lo v) = f u)
    (he : ∀ u a b c d, f (State.logEvent u a b c d) = f u) (hw : ∀ u q hi lo v, f (State.putR u (.thermWarm q) hi lo v) = f u)
    (hc : ∀ u, f (State.countWindow u) = f u) (hl : ∀ u r n, f (State.setLimit u r n) = f u)
    (h7 : ∀ u n, f (State.putR u .thermStatus 7 0 n) = f u) (h47 : ∀ u n, f (State.putR u .thermStatus 47 32 n) = f u)
    (s : State) (inlet : Nat) (l : List Region) (xs : List ThermReading) :
    f (l.foldl State.refreshThrottled (xs.foldl (fun u x => u.noteReading inlet x) s).regulate).countWindow = f s :=
  (State.windowEnd_keeps hr he hc _ _).trans ((State.regulate_keeps hl h7 h47 _).trans (foldl_keeps (fun u x => u.noteReading_keeps hr he hw inlet x) _ _))

theorem State.window_keeps_coolant (s : State) (inlet : Nat) (l : List Region) (xs : List ThermReading) {hi lo : Nat} (h8 : 7 < lo) (hlo : lo ≤ hi) (h32 : hi < 32) :
    (l.foldl State.refreshThrottled (xs.foldl (fun u x => u.noteReading inlet x) s).regulate).countWindow.rfld .thermStatus hi lo = s.rfld .thermStatus hi lo :=
  State.window_keeps (f := (·.rfld .thermStatus hi lo)) (fun _ _ _ _ _ => State.rfld_putR_ne _ _ _ _ _ _ fun h => Reg.noConfusion h) (fun _ _ _ _ _ => State.rfld_logEvent _ rfl ..)
    (fun _ _ _ _ _ => State.rfld_putR_ne _ _ _ _ _ _ fun h => Reg.noConfusion h) (fun _ => rfl) (fun _ _ _ => rfl)
    (fun u n => u.rfld_putR_above _ n (by decide) (by decide) h8) (fun u n => u.rfld_putR_below _ n (by decide) (by decide) h32 hlo) s inlet l xs

theorem State.regs_noteCoolant (s : State) (inlet outlet : Nat) : (s.noteCoolant inlet outlet).regs = (((s.putR .thermStatus 15 8 (min 255 inlet)).putR
    .thermStatus 23 16 (min 255 outlet)).putR .thermStatus 25 25 (if 80 < inlet then 1 else 0)).regs := rfl

/-- The coolant's fields, read from the state in which it was noted. -/
theorem State.noteCoolant_fields (s : State) (inlet outlet : Nat) : (s.noteCoolant inlet outlet).rfld .thermStatus 15 8 = min 255 inlet ∧
    (s.noteCoolant inlet outlet).rfld .thermStatus 23 16 = min 255 outlet ∧ ((s.noteCoolant inlet outlet).rfld .thermStatus 25 25 = 1 ↔ 80 < inlet) := by
  have h255 (n : Nat) : min 255 n % 2 ^ 8 = min 255 n := Nat.mod_eq_of_lt (Nat.lt_succ_of_le (Nat.min_le_left 255 n))
  have e := s.regs_noteCoolant inlet outlet
  refine ⟨State.rfld_of_regs ((State.rfld_putR_below _ _ _ (by decide) (by decide) (by decide) (by decide)).trans ((State.rfld_putR_below _ _ _ (by decide) (by decide)
      (by decide) (by decide)).trans ((State.rfld_putR_self _ _ _ (by decide) (by decide)).trans (h255 _)))) e,
    State.rfld_of_regs ((State.rfld_putR_below _ _ _ (by decide) (by decide) (by decide) (by decide)).trans
      ((State.rfld_putR_self _ _ _ (by decide) (by decide)).trans (h255 _))) e, ?_⟩
  rw [State.rfld_of_regs (State.rfld_putR_bit _ _ (by decide) _) e]
  by_cases h : 80 < inlet
  · rw [if_pos h]
    exact iff_of_true rfl h
  · rw [if_neg h]
    exact iff_of_false (by decide) h

theorem State.getReg_noteCoolant (s : State) (inlet outlet : Nat) {x : Reg} (hx : x ≠ .thermStatus) : (s.noteCoolant inlet outlet).getReg x = s.getReg x :=
  (State.getReg_congr (s.regs_noteCoolant inlet outlet) x).trans ((State.getReg_putR_ne _ 25 25 _ hx).trans ((State.getReg_putR_ne _ 23 16 _ hx).trans (State.getReg_putR_ne s 15 8 _ hx)))

/-- The limits and the regions' registers are read for the hottest region and its step, and nothing else. -/
theorem State.hottest_congr {s u : State} (h : ∀ x, x ≠ .thermStatus → u.getReg x = s.getReg x) : u.hottest = s.hottest := by
  have hon : u.regionOn = s.regionOn := funext fun r => congrArg (fun w => decide (fld w 14 14 = 1)) (h (.pwrRegion r) fun h => Reg.noConfusion h)
  have hp : u.predictOf = s.predictOf := funext fun r => congrArg (fld · 15 8) (h (.thermRegion r) fun h => Reg.noConfusion h)
  unfold State.hottest
  rw [hon, hp]

theorem State.stepTarget_congr {s u : State} (h : ∀ x, x ≠ .thermStatus → u.getReg x = s.getReg x) (ht : u.therm.limit = s.therm.limit)
    (hl : u.therm.lent = s.therm.lent) (r : Region) : u.stepTarget r = s.stepTarget r := by
  have hw := h (.pwrRegion r) fun h => Reg.noConfusion h
  unfold State.stepTarget State.ownStep State.reqStep State.fwMax State.thermLimit State.lenders State.rfld
  rw [hw, ht, hl]

theorem State.thermLimit_setLimit_ne (s : State) {r h : Region} (hr : h ≠ r) (n : Nat) : (s.setLimit r n).thermLimit h = s.thermLimit h :=
  ite_keeps (kget 15 · h) (congrArg (Option.getD · 15) (kfind_kdel_ne _ hr)) (kget_kset_ne _ _ _ hr)

theorem State.thermLimit_setLimit_self (s : State) (r : Region) {n : Nat} (h : n < 15) : (s.setLimit r n).thermLimit r = n :=
  (congrArg (kget 15 · r) (if_neg (Nat.not_le.mpr h))).trans (kget_kset_self ..)

/-- No release of a limit writes THERM_STATUS. -/
theorem State.rfld_releases (l : List Region) (s : State) (r : Reg) (hi lo : Nat) : (l.foldl State.release_ s).rfld r hi lo = s.rfld r hi lo :=
  State.rfld_of_regs rfl (foldl_keeps (φ := State.regs) (f := State.release_) (fun _ _ => ite_keeps State.regs rfl rfl) l s)

/-- The hottest region, at THROTTLE_AT, is held one below its step; the others are not throttled (R375). -/
theorem State.regulate_hot {s : State} {h : Region} (hhot : s.hottest = some h) (hthr : s.rfld .thermCtrl 7 0 ≤ s.predictOf h) :
    s.regulate.thermLimit h = min (s.stepOf h) (s.stepTarget h) - 1 ∧ s.regulate.rfld .thermStatus 7 0 = h.val ∧
      s.regulate.rfld .thermStatus 47 32 = min (s.rfld .thermStatus 47 32 + 1) 65535 := by
  have hstep : min (s.stepOf h) (s.stepTarget h) - 1 < 15 :=
    Nat.lt_of_le_of_lt (Nat.sub_le_sub_right (Nat.min_le_left _ _) 1) (show fld (s.getReg (.thermRegion h)) 19 16 - 1 < 15 from Nat.lt_of_le_of_lt (Nat.sub_le_sub_right (Nat.le_of_lt_succ (Nat.mod_lt _ (by decide))) 1) (by decide))
  unfold State.regulate
  rw [hhot]
  dsimp only
  rw [if_pos (decide_eq_true hthr)]
  refine ⟨?_, ?_, ?_⟩
  · refine (foldl_keeps_mem (φ := (State.thermLimit · h)) (f := State.release_) _ (fun r hr (u : State) => ite_keeps (State.thermLimit · h) (u.thermLimit_setLimit_ne (fun e => ?_) _) rfl) _).trans
      (s.thermLimit_setLimit_self h hstep)
    have hr := (List.mem_filter.mp hr).2
    rw [decide_eq_true hthr, decide_eq_true e.symm] at hr
    exact Bool.false_ne_true hr
  · exact (State.rfld_releases ..).trans
      ((State.rfld_putR_self _ _ _ (by decide) (by decide)).trans (Nat.mod_eq_of_lt (Nat.lt_trans h.isLt (by decide))))
  · exact (State.rfld_releases ..).trans
      ((State.rfld_putR_above _ _ _ (by decide) (by decide) (by decide)).trans ((State.rfld_putR_self _ _ _ (by decide) (by decide)).trans
        ((Nat.mod_eq_of_lt (Nat.lt_succ_of_le (Nat.min_le_right _ _))).trans (congrArg (fun n => min (n + 1) 65535) (State.rfld_of_regs rfl rfl)))))

/-- What the hot window leaves, from a state that differs from s in the coolant's fields alone. -/
theorem State.hotWindow {u s : State} {h : Region} (hget : ∀ x, x ≠ .thermStatus → u.getReg x = s.getReg x) (hlim : u.therm.limit = s.therm.limit)
    (hlent : u.therm.lent = s.therm.lent) (hcount : u.rfld .thermStatus 47 32 = s.rfld .thermStatus 47 32) (hhot : s.hottest = some h)
    (hthr : s.rfld .thermCtrl 7 0 ≤ s.predictOf h) (l : List Region) :
    (l.foldl State.refreshThrottled u.regulate).countWindow.thermLimit h = min (s.stepOf h) (s.stepTarget h) - 1 ∧
      (l.foldl State.refreshThrottled u.regulate).countWindow.rfld .thermStatus 7 0 = h.val ∧
      (l.foldl State.refreshThrottled u.regulate).countWindow.rfld .thermStatus 47 32 = min (s.rfld .thermStatus 47 32 + 1) 65535 := by
  have hregion := hget (.thermRegion h) fun h => Reg.noConfusion h
  have hstep : u.stepOf h = s.stepOf h := congrArg (fld · 19 16) hregion
  have hstatus (hi lo : Nat) := State.windowEnd_keeps (f := (State.rfld · .thermStatus hi lo)) (fun _ _ _ _ _ => State.rfld_putR_ne _ _ _ _ _ _ fun h => Reg.noConfusion h)
    (fun _ _ _ _ _ => State.rfld_logEvent _ rfl ..) (fun _ => rfl) l u.regulate
  obtain ⟨h1, h2, h3⟩ := State.regulate_hot ((State.hottest_congr hget).trans hhot)
    (((congrArg (fld · 7 0) (hget .thermCtrl fun h => Reg.noConfusion h)).trans_le hthr).trans_eq (congrArg (fld · 15 8) hregion).symm)
  rw [hstep, State.stepTarget_congr hget hlim hlent] at h1
  rw [hcount] at h3
  exact ⟨(State.windowEnd_keeps (f := (State.thermLimit · h)) (fun _ _ _ _ _ => rfl) (fun _ _ _ _ _ => State.logEvent_keeps (f := (State.thermLimit · h))
    ⟨fun _ _ _ _ _ => rfl⟩ ..) (fun _ => rfl) l _).trans h1, (hstatus 7 0).trans h2, (hstatus 47 32).trans h3⟩

/-- Settles O53. -/
theorem thermalControl : Obligations.ThermalControl := by
  have hclosed {s : State} (h2 : 2 ≤ s.modState) (h7 : s.modState ≠ 7) (hw : s.inWindow = false) :
      (decide (s.modState < 2) || decide (s.modState = 7) || s.inWindow) = false := by rw [decide_eq_false (Nat.not_lt.mpr h2), decide_eq_false h7, hw]; rfl
  refine ⟨fun s inlet outlet xs hw => if_pos (by rw [hw, Bool.or_true]), fun s inlet outlet xs h2 h7 hw => ?_, fun s inlet outlet h h2 h7 hw hhot hthr => ?_,
    fun s v r hv h100 hen h15 => ?_, fun s v h0 hcalm => ?_, fun s v hen => if_pos (by rw [decide_eq_true hen]; rfl)⟩
  · refine ⟨_, if_false_eq (hclosed h2 h7 hw), ?_, ?_, ?_, ?_⟩
    · exact (State.window_keeps_coolant _ inlet _ _ (by decide) (by decide) (by decide)).trans (State.noteCoolant_fields _ inlet outlet).1
    · exact (State.window_keeps_coolant _ inlet _ _ (by decide) (by decide) (by decide)).trans (State.noteCoolant_fields _ inlet outlet).2.1
    · rw [State.window_keeps_coolant _ inlet _ _ (by decide) (by decide) (by decide)]
      exact (State.noteCoolant_fields _ inlet outlet).2.2
    · exact (State.window_keeps (f := State.cores) (fun _ _ _ _ _ => rfl) (fun _ _ _ _ _ => State.logEvent_keeps ⟨fun _ _ _ _ _ => rfl⟩ ..)
        (fun _ _ _ _ _ => rfl) (fun _ => rfl) (fun _ _ _ => rfl) (fun _ _ => rfl) (fun _ _ => rfl) _ inlet _ _).trans rfl
  · exact ⟨_, if_false_eq (hclosed h2 h7 hw), State.hotWindow (u := State.noteCoolant { s with therm := { s.therm with window := some (s.now, s.winTicks 1000000) } } inlet outlet)
      (fun x hx => (State.getReg_noteCoolant _ inlet outlet hx).trans rfl) rfl rfl
      (State.rfld_of_regs ((State.rfld_putR_above _ _ _ (by decide) (by decide) (by decide)).trans ((State.rfld_putR_above _ _ _ (by decide) (by decide) (by decide)).trans
        (State.rfld_putR_above _ _ _ (by decide) (by decide) (by decide)))) (State.regs_noteCoolant _ inlet outlet)) hhot hthr _⟩
  · refine ⟨_, if_false_eq ?_, ?_, ?_⟩
    · rw [hen, decide_eq_false (Nat.not_le.mpr h15), List.any_eq_true.mpr ⟨r, mem_allFin r, Bool.and_eq_true_iff.mpr ⟨hv, decide_eq_true h100⟩⟩]
      rfl
    · exact (State.rfld_logEvent _ rfl ..).trans ((State.rfld_putR_self _ _ _ (by decide) (by decide)).trans (Nat.mod_eq_of_lt (Nat.succ_lt_succ h15)))
    · exact (State.logEvent_keeps (f := State.cores) ⟨fun _ _ _ _ _ => rfl⟩ ..).trans rfl
  · refine ⟨_, if_false_eq ?_, (State.rfld_putR_self _ _ _ (by decide) (by decide)).trans (Nat.mod_eq_of_lt ?_), rfl⟩
    · rw [decide_eq_false h0, decide_eq_false (Nat.not_lt.mpr hcalm)]
      rfl
    · exact Nat.lt_of_le_of_lt (Nat.sub_le _ 1) (Nat.mod_lt _ (by decide))

end Sys2Proof.Machine
end

section
/-! PROOFS. Descriptors of the DMA engine: the queue, and a local copy that starts (R82 to R86, R228). -/

namespace Sys2Proof.Machine

/-- A descriptor instruction of an admitted form, by its checks. -/
theorem enqueueDesc_eq {f : FmtX} (hf : f = { src := f.src }) (s : State) (t : Site) (walk : Bool) : enqueueDesc t f walk s =
    issue s t (decide (32 ≤ (s.core t.core).dmaQ.length) || (s.core t.core).heldByMove t.thread false ((s.thread t).sreg f.src).toNat 32) true
      ((false, .illegal) :: descChecks s t ((s.thread t).sreg f.src).toNat walk)
      (fun u => if (s.core t.core).doubleAt ((s.thread t).sreg f.src).toNat 32 = true then s.dataFault t
        else { (u.readCounted t.core ((s.thread t).sreg f.src).toNat 32).modCore t.core (fun k =>
            { k with dmaQ := k.dmaQ ++ [{ descOf (s.core t.core) ((s.thread t).sreg f.src).toNat walk with uid := s.seq }] }) with seq := u.seq + 1 }) :=
  (congrArg (fun g => enqueueDesc t g walk s) hf).trans rfl

/-- A descriptor that does not stand at a multiple of 32 fails with ADDRESS alone. -/
theorem firstFault_descChecks_unaligned (s : State) (t : Site) {a : Nat} (walk : Bool) (h : a % 32 ≠ 0) : firstFault (descChecks s t a walk) = some .address := by
  have hok (b : Bool) : (decide (a % 32 = 0) && b) = false := congrArg (· && b) (decide_eq_false h)
  exact firstFault_skip (congrArg (· && _) (hok _)) (firstFault_skip (congrArg (· && _ && _) (hok _)) (firstFault_skip (congrArg (· && _ && _) (hok _))
    (firstFault_fails (congrArg (!· || _) (hok _)) rfl)))

theorem kindOf_ne {w : Word64} (h : kindOf w = 0) {k : Nat} (hk : 0 ≠ k) : ¬ kindOf w = k := fun e => hk (h.symm.trans e)

/-- A local copy that passes its checks becomes active. -/
theorem startDesc_local {s : State} {c : CoreId} {v : VatId} {d : Desc} (hw : d.isWalk = false) (hsrc : kindOf d.src = 0) (hdst : kindOf d.dst = 0)
    (hfault : descFault s c v d = none) :
    s.startDesc c v d = s.activate c { d with startTick := s.tickOf (halfOf (regionOf c)), window := s.remoteWindow v } := by
  have hout {w : Word64} (hk : kindOf w = 0) (b : Bool) : (decide (kindOf w = 1) && b) = false := congrArg (· && b) (decide_eq_false (kindOf_ne hk (by decide)))
  refine (if_false_eq hw).trans ((if_false_eq ((congrArg (_ && ·) (Bool.or_eq_false_iff.mpr ⟨Bool.or_eq_false_iff.mpr ⟨Bool.or_eq_false_iff.mpr
    ⟨hout hsrc _, hout hdst _⟩, hout hsrc _⟩, congrArg (· && _) (hout hdst _)⟩)).trans (Bool.and_false _))).trans ?_)
  have hfault : descFault s c v { d with startTick := s.tickOf (halfOf (regionOf c)), window := s.remoteWindow v } = none := hfault
  rw [hfault]
  exact (if_neg (kindOf_ne hdst (by decide))).trans ((if_neg (kindOf_ne hdst (by decide))).trans ((if_neg (kindOf_ne hsrc (by decide))).trans
    ((if_neg (kindOf_ne hsrc (by decide))).trans (if_neg (kindOf_ne hdst (by decide))))))

theorem exec_dmaDescriptorStart {s : State} {c : CoreId} {d : Desc} {ds : List Desc} {v : VatId} (hq : (s.core c).dmaQ = d :: ds) (hv : s.vatOf c = some v) :
    exec (.dmaDescriptorStart c) s = if (!s.regionRuns (regionOf c) || 8 ≤ (s.core c).dmaActive.length || (d.fence && !(s.core c).dmaActive.isEmpty)
      || startHeld s c d || (!d.isWalk && (kindOf d.src = 3 || kindOf d.dst = 3) && (s.core c).freeTag.isNone)) = true then .next s
      else .next (s.startDesc c v d) := by
  show execDmaDescriptorStart c s = _
  unfold execDmaDescriptorStart
  dsimp only
  rw [hq, hv]

/-- Settles O20. -/
theorem descriptorQueue : Obligations.DescriptorQueue := by
  intro s t f h hf k a taken
  refine ⟨fun hlen hheld hdouble => ?_, fun hlen => ?_, fun c d ds v hq hv hruns hheld => ⟨fun hlen hfence hw hsrc hdst hfault => ?_, fun hlen => ?_,
    fun hfence hact => ?_⟩⟩
  · have hgo := Bool.or_eq_false_iff.mpr ⟨decide_eq_false (Nat.not_le_of_lt hlen), hheld⟩
    have hdma (walk : Bool) (hc : firstFault (descChecks s t a walk) = none) : enqueueDesc t f walk s = taken walk :=
      (enqueueDesc_eq hf s t walk).trans ((issue_onward hgo h (firstFault_pass rfl hc) _).trans (congrArg Host.Outcome.next (if_false_eq hdouble)))
    have hstop (walk : Bool) (hal : a % 32 ≠ 0) : enqueueDesc t f walk s = .next (s.threadFault t .address) :=
      (enqueueDesc_eq hf s t walk).trans (issue_faults hgo h (firstFault_skip rfl (firstFault_descChecks_unaligned s t walk hal)) _)
    exact ⟨hdma false, hdma true, fun hal => ⟨hstop false hal, hstop true hal⟩⟩
  · have hwait (walk : Bool) : enqueueDesc t f walk s = .next s :=
      (enqueueDesc_eq hf s t walk).trans (issue_waits (congrArg (· || _) (decide_eq_true hlen)) true _)
    exact ⟨hwait false, hwait true⟩
  · have hnone {w : Word64} (hk : kindOf w = 0) : decide (kindOf w = 3) = false := decide_eq_false (kindOf_ne hk (by decide))
    have hidle : (d.fence && !(s.core c).dmaActive.isEmpty) = false := by
      by_cases hf : d.fence = true
      · exact (congrArg (fun l => d.fence && !List.isEmpty l) (hfence hf)).trans (Bool.and_false _)
      · exact congrArg (· && _) (Bool.eq_false_of_not_eq_true hf)
    refine (exec_dmaDescriptorStart hq hv).trans ((if_false_eq (Bool.or_eq_false_iff.mpr ⟨Bool.or_eq_false_iff.mpr ⟨Bool.or_eq_false_iff.mpr ⟨Bool.or_eq_false_iff.mpr
      ⟨congrArg (!·) hruns, decide_eq_false (Nat.not_le_of_lt hlen)⟩, hidle⟩, hheld⟩, congrArg₂ (fun w b => !w && b && _) hw
        (Bool.or_eq_false_iff.mpr ⟨hnone hsrc, hnone hdst⟩)⟩)).trans (congrArg _ ((startDesc_local hw hsrc hdst hfault).trans ?_)))
    exact congrArg (fun q => s.setCore c { s.core c with dmaQ := q, dmaActive := _ }) (congrArg (List.drop 1) hq)
  · exact (exec_dmaDescriptorStart hq hv).trans (if_pos (Bool.or_eq_true_iff.mpr (.inl (Bool.or_eq_true_iff.mpr (.inl (Bool.or_eq_true_iff.mpr (.inl
      (Bool.or_eq_true_iff.mpr (.inr (decide_eq_true hlen))))))))))
  · exact (exec_dmaDescriptorStart hq hv).trans (if_pos (Bool.or_eq_true_iff.mpr (.inl (Bool.or_eq_true_iff.mpr (.inl (Bool.or_eq_true_iff.mpr (.inr
      (Bool.and_eq_true_iff.mpr ⟨hfence, congrArg (!·) (List.isEmpty_eq_false_iff.mpr hact)⟩))))))))

end Sys2Proof.Machine
end

section
/-! PROOFS. The memory of a core: reads of what was written, and ranges of the scratchpad (R57, R77, R85). -/

namespace Sys2Proof.Machine

theorem mem_of_kfind {κ α : Type} [DecidableEq κ] {x : κ} {v : α} {m : KMap κ α} (h : kfind m x = some v) : (x, v) ∈ m := by
  induction m with
  | nil => cases h
  | cons p m ih =>
    by_cases hk : p.1 = x
    · exact (Prod.ext hk (Option.some.inj ((if_pos hk).symm.trans h)) : p = (x, v)) ▸ List.mem_cons_self
    · exact List.mem_cons_of_mem _ (ih ((if_neg hk).symm.trans h))

theorem memWf_freshCore (b : Bool) : memWf (freshCore b).mem = true := by
  obtain _ | _ := b
  · rfl
  · rfl

/-- Every core's memory is canonical in a canonical state; one that is not listed has nothing in it. -/
theorem memWf_core {s : State} (h : s.memOk = true) (c : CoreId) : memWf (s.core c).mem = true := by
  have hall := List.all_eq_true.mp ((Bool.and_eq_true _ _).mp ((Bool.and_eq_true _ _).mp h).1).1
  unfold State.core
  generalize hk : kfind s.cores c = o
  obtain _ | k := o
  · exact memWf_freshCore _
  · exact hall _ (mem_of_kfind hk)

theorem getD_memBytes (m : Mem) (n : Nat) : ∀ a j : Nat, j < n → (memBytes m a n).getD j 0 = memGet m (a + j) := by
  induction n with
  | zero => exact fun _ j hj => absurd hj (Nat.not_lt_zero j)
  | succ n ih =>
    intro a j hj
    obtain _ | j := j
    · rfl
    · exact (ih (a + 1) j (Nat.lt_of_succ_lt_succ hj)).trans (congrArg (memGet m) (Nat.succ_add_eq_add_succ a j))

section
variable {m : Mem} (hw : memWf m = true)
include hw

theorem memGet_memPut_outside {a x : Nat} {bs : List Byte} (h : x < a ∨ a + bs.length ≤ x) : memGet (memPut m a bs) x = memGet m x :=
  (memGet_memPut bs m a x hw).trans (if_neg fun e => h.elim (fun h => absurd e.1 (Nat.not_le.mpr h)) fun h => absurd e.2 (Nat.not_lt.mpr h))

/-- A copy of n bytes. -/
theorem memGet_copy (a d n : Nat) : (∀ j, j < n → memGet (memPut m d (memBytes m a n)) (d + j) = memGet m (a + j)) ∧
    ∀ x, (x < d ∨ d + n ≤ x) → memGet (memPut m d (memBytes m a n)) x = memGet m x := by
  have hlen := memBytes_length m n a
  refine ⟨fun j hj => ?_, fun x hx => memGet_memPut_outside hw (hlen.symm ▸ hx)⟩
  exact (memGet_memPut _ m d _ hw).trans ((if_pos ⟨Nat.le_add_right d j, hlen.symm ▸ Nat.add_lt_add_left hj d⟩).trans
    ((congrArg ((memBytes m a n).getD · 0) (Nat.add_sub_cancel_left d j)).trans (getD_memBytes m n a j hj)))

end

theorem memBytes_memPut_self (bs : List Byte) : ∀ {m : Mem}, memWf m = true → ∀ a, memBytes (memPut m a bs) a bs.length = bs := by
  induction bs with
  | nil => exact fun _ _ => rfl
  | cons b bs ih =>
    intro m hw a
    have hset := memWf_memSet m hw a b
    exact congrArg₂ List.cons ((memGet_memPut_outside hset (.inl (Nat.lt_succ_self a))).trans ((memGet_memSet m hw a a b).trans (if_pos rfl)))
      (ih hset (a + 1))

/-! ## Ranges of the scratchpad -/

section
variable {k : Core} {a n : Nat} (h : k.inSpm a n = true)
include h

theorem spaceOf_of_inSpm : k.spaceOf a n = some .spm := of_decide_eq_true h

theorem reach_of_inSpm : k.reach a n = some .spm := by unfold Core.reach; rw [spaceOf_of_inSpm h]

theorem writeLocal_of_inSpm {bs : List Byte} (hn : bs.length = n) : k.writeLocal a bs = k.putBytes a bs := by
  cases hn
  unfold Core.writeLocal
  rw [spaceOf_of_inSpm h]
  rfl

end

theorem readLocal_of_inSpm {s : State} {c : CoreId} {a n : Nat} (h : (s.core c).inSpm a n = true) : s.readLocal c a n = memBytes (s.core c).mem a n := by
  unfold State.readLocal
  dsimp only
  rw [spaceOf_of_inSpm h]

theorem doubleAt_part {k : Core} {a n i m : Nat} (h : k.doubleAt a n = false) (hi : i + m ≤ n) : k.doubleAt (a + i) m = false :=
  List.any_eq_false.mpr fun w hw ht => by
    obtain ⟨h1, h2⟩ := (Bool.and_eq_true _ _).mp ht
    exact List.any_eq_false.mp h w hw ((Bool.and_eq_true _ _).mpr ⟨decide_eq_true (Nat.lt_of_lt_of_le (of_decide_eq_true h1)
      (Nat.add_assoc a i m ▸ Nat.add_le_add_left hi a)), decide_eq_true (Nat.lt_of_le_of_lt (Nat.le_add_right a i) (of_decide_eq_true h2))⟩)

end Sys2Proof.Machine
end

section
/-! PROOFS. A local copy of the DMA engine (R82, R83, R230). -/

namespace Sys2Proof.Machine

theorem firstBad_none {n : Nat} {bad : Nat → Bool} (h : ∀ i, i < n → bad i = false) : firstBad n bad = n :=
  congrArg (Option.getD · n) (List.find?_eq_none.mpr fun i hi =>
    (Bool.not_eq_true _).mpr (h i (List.mem_range.mp (upTo_eq_range n ▸ hi))))

/-- A local source without a double-bit error is delivered whole. -/
theorem sourceOf_local {s : State} {c : CoreId} {w : Word64} {n : Nat} (hk : kindOf w = 0) (hspm : (s.core c).inSpm (addr0 w) n = true)
    (hd : (s.core c).doubleAt (addr0 w) n = false) : sourceOf s c w n = (memBytes (s.core c).mem (addr0 w) n, true) := by
  have hm : (if (s.core c).eccDouble.isEmpty then n else firstBad n (fun i => (s.core c).doubleAt (addr0 w + i) 1)) = n :=
    ite_keeps id rfl (firstBad_none fun i hi => doubleAt_part hd hi)
  unfold sourceOf
  rw [hk]
  exact (congrArg (fun m => (List.take m (s.readLocal c (addr0 w) n), decide (m = n))) hm).trans (Prod.ext ((congrArg (List.take n) (readLocal_of_inSpm hspm)).trans
    (List.take_of_length_le (Nat.le_of_eq (memBytes_length ..)))) (decide_eq_true rfl))

theorem sourceRead_local {s : State} {c : CoreId} {w : Word64} {n : Nat} (hk : kindOf w = 0) (hspm : (s.core c).inSpm (addr0 w) n = true)
    (hd : (s.core c).doubleAt (addr0 w) n = false) : s.sourceRead c w n = s.readCounted c (addr0 w) n := by
  unfold State.sourceRead sourceCore
  rw [sourceOf_local hk hspm hd, hk]
  exact congrArg (s.readCounted c (addr0 w)) (memBytes_length _ _ _)

/-- The state after the bytes of a local copy have come. -/
noncomputable def State.copied (s : State) (c : CoreId) (d : Desc) : State :=
  ((s.readCounted c (addr0 d.src) d.length).mergeCounted c (addr0 d.dst) d.length).modCore c
    fun k => k.writeLocal (addr0 d.dst) (memBytes (s.core c).mem (addr0 d.src) d.length)

section
variable {s : State} {c : CoreId} {d : Desc} (hb : (s.core c).inSpm (addr0 d.dst) d.length = true)
include hb

theorem moveBytes_local (hsrc : kindOf d.src = 0) (hdst : kindOf d.dst = 0) (ha : (s.core c).inSpm (addr0 d.src) d.length = true)
    (hd : (s.core c).doubleAt (addr0 d.src) d.length = false) : s.moveBytes c d = (s.copied c d, .ok) := by
  unfold State.moveBytes State.copied
  rw [sourceOf_local hsrc ha hd, sourceRead_local hsrc ha hd, reach_of_inSpm hb]
  refine (if_neg fun e => absurd (hdst.symm.trans e) (by decide)).trans ?_
  dsimp only
  rw [memBytes_length]
  rfl

theorem core_copied {α : Type} (φ : Core → α) (h : ∀ k t h ws, φ (Core.countWords k t h ws) = φ k) :
    ∃ k, (s.copied c d).core c = k.putBytes (addr0 d.dst) (memBytes (s.core c).mem (addr0 d.src) d.length) ∧ φ k = φ (s.core c) := by
  have hkeep {β : Type} (ψ : Core → β) (h : ∀ k t h ws, ψ (Core.countWords k t h ws) = ψ k) :
      ψ (((s.readCounted c (addr0 d.src) d.length).mergeCounted c (addr0 d.dst) d.length).core c) = ψ (s.core c) :=
    (congrArg ψ (State.core_modCore_self _ c _)).trans ((h _ _ _ _).trans ((congrArg ψ (State.core_modCore_self s c _)).trans (h _ _ _ _)))
  exact ⟨_, (State.core_modCore_self _ c _).trans (writeLocal_of_inSpm ((hkeep (Core.inSpm · _ _) fun _ _ _ _ => rfl).trans hb) (memBytes_length _ _ _)),
    hkeep φ h⟩

theorem mem_copied : ((s.copied c d).core c).mem = memPut (s.core c).mem (addr0 d.dst) (memBytes (s.core c).mem (addr0 d.src) d.length) :=
  (core_copied hb Core.mem fun _ _ _ _ => rfl).elim fun _ h => (congrArg Core.mem h.1).trans (congrArg (memPut · _ _) h.2)

theorem dmaActive_copied : ((s.copied c d).core c).dmaActive = (s.core c).dmaActive :=
  (core_copied hb Core.dmaActive fun _ _ _ _ => rfl).elim fun _ h => (congrArg Core.dmaActive h.1).trans h.2

end

/-- The core after a descriptor that completes without SIGNAL: it loses the descriptor and takes its status word. -/
noncomputable def Core.finished (d : Desc) (i : Nat) (st : Status) (k : Core) : Core :=
  if d.statusAddr = 0 then { k with dmaActive := k.dmaActive.eraseIdx i }
  else Core.putBytes { k with dmaActive := k.dmaActive.eraseIdx i } d.statusAddr (leBytes 4 (statusCode st + 256))

theorem finishDesc_quiet (s : State) (c : CoreId) (i : Nat) {d : Desc} (hsig : d.signal = false) (st : Status) :
    s.finishDesc c i d st = s.modCore c (Core.finished d i st) := by
  unfold State.finishDesc
  generalize s.vatOf c = o
  obtain _ | v := o
  · rfl
  · exact if_false_eq (congrArg (· && _) hsig)

theorem dmaActive_finished (d : Desc) (i : Nat) (st : Status) (k : Core) : (k.finished d i st).dmaActive = k.dmaActive.eraseIdx i :=
  ite_keeps Core.dmaActive rfl rfl

section
variable {d : Desc} {i : Nat} {k : Core} (hw : memWf k.mem = true)
include hw

theorem word_finished (h : d.statusAddr ≠ 0) : (k.finished d i .ok).word d.statusAddr = 0x100 := by
  have hm : (k.finished d i .ok).mem = memPut k.mem d.statusAddr (leBytes 4 256) := congrArg Core.mem (if_neg h)
  have hb : memBytes (k.finished d i .ok).mem d.statusAddr 4 = leBytes 4 256 := hm ▸ memBytes_memPut_self (leBytes 4 256) hw d.statusAddr
  exact (congrArg (fun bs => w32 (ofLe bs)) hb).trans rfl

theorem memGet_finished {x : Nat} (h : x < d.statusAddr ∨ d.statusAddr + 4 ≤ x ∨ d.statusAddr = 0) : memGet (k.finished d i .ok).mem x = memGet k.mem x := by
  by_cases h0 : d.statusAddr = 0
  · exact (congrArg (fun k : Core => memGet k.mem x) (if_pos h0)).trans rfl
  · exact (congrArg (fun k : Core => memGet k.mem x) (if_neg h0)).trans (memGet_memPut_outside hw (h.imp_right fun h => h.resolve_right h0))

end

/-- A local descriptor whose destination is not held moves its bytes and ends. -/
theorem exec_dmaDescriptorComplete {s : State} {c : CoreId} {i : Fin 8} {d : Desc} (hact : (s.core c).dmaActive[i.val]? = some d)
    (hruns : s.regionRuns (regionOf c) = true) (hres : d.result = none) (hsrc : kindOf d.src = 0) (hdst : kindOf d.dst = 0)
    (hheld : moveHeld s c d = false) : exec (.dmaDescriptorComplete c i) s = .next ((s.moveBytes c d).1.finishDesc c i d (s.moveBytes c d).2) := by
  have hkind {k : Nat} {w : Word64} (hw : kindOf w = 0) (h : 0 ≠ k) : decide (kindOf w = k) = false := decide_eq_false (hw ▸ h)
  show execDmaDescriptorComplete c i s = _
  unfold execDmaDescriptorComplete
  rw [hact]
  refine (if_false_eq (congrArg not hruns)).trans ?_
  rw [hres]
  have hnear := Bool.or_eq_false_iff.mpr ⟨hkind hsrc (k := 3) (by decide), hkind hdst (k := 3) (by decide)⟩
  have htime : canTimeOut d = false := (congrArg (!d.isWalk && ·) (Bool.or_eq_false_iff.mpr ⟨hnear, hkind hsrc (by decide)⟩)).trans (Bool.and_false _)
  exact (if_false_eq (Bool.or_eq_false_iff.mpr ⟨hnear, hheld⟩)).trans (if_false_eq (congrArg (· && s.timedOut c d) htime))

/-- Settles O21. -/
theorem localCopyCompletes : Obligations.LocalCopyCompletes := by
  intro s c i d hmem hact hruns hwalk hres hsig hsrc hdst k a b ha hb hdouble hdis hal hstat hheld
  have hwf : memWf k.mem = true := memWf_core hmem c
  have hexec := exec_dmaDescriptorComplete hact hruns hres hsrc hdst hheld
  rw [moveBytes_local hb hsrc hdst ha hdouble, finishDesc_quiet _ c i hsig] at hexec
  have hu : ((s.copied c d).modCore c (Core.finished d i .ok)).core c = ((s.copied c d).core c).finished d i .ok := State.core_modCore_self ..
  have hmem := mem_copied (d := d) hb
  have hout {y : Nat} (h : y < d.statusAddr ∨ d.statusAddr + 4 ≤ y ∨ d.statusAddr = 0) :
      memGet (((s.copied c d).modCore c (Core.finished d i .ok)).core c).mem y = memGet (memPut k.mem b (memBytes k.mem a d.length)) y := by
    rw [hu, memGet_finished (hmem ▸ memWf_memPut _ _ _ hwf) h, hmem]
  refine ⟨_, hexec, (congrArg Core.dmaActive hu).trans ((dmaActive_finished ..).trans (congrArg (List.eraseIdx · i) (dmaActive_copied hb))),
    fun j hj => (hout ?_).trans ((memGet_copy hwf a b d.length).1 j hj), fun hne => (congrArg (Core.word · _) hu).trans (word_finished (hmem ▸ memWf_memPut _ _ _ hwf) hne),
    fun y hy hy' => (hout hy').trans ((memGet_copy hwf a b d.length).2 y hy), fun e he => ?_, rfl, rfl⟩
  · exact hstat.elim (fun h => .inr (.inr h)) fun h => h.2.elim (fun h => .inr (.inl (Nat.le_trans h (Nat.le_add_right b j))))
      fun h => .inl (Nat.lt_of_lt_of_le (Nat.add_lt_add_left hj b) h)
  · exact (State.core_modCore_ne _ _ he).trans ((State.core_modCore_ne _ _ he).trans ((State.core_modCore_ne _ _ he).trans (State.core_modCore_ne _ _ he)))

end Sys2Proof.Machine
end

section
/-! PROOFS. Moves within the scratchpad (R225). -/

namespace Sys2Proof.Machine

theorem spaceOf_zero (k : Core) (a : Nat) {n : Nat} (h : n = 0) : k.spaceOf a n = none :=
  congrArg (Option.map _) (List.find?_eq_none.mpr fun _ _ e => absurd h (Nat.ne_of_gt (of_decide_eq_true (Bool.and_eq_true_iff.mp e).2)))

theorem busyAt_of_space {k : Core} {a n : Nat} {o : Option Space} (h : k.spaceOf a n = o) (ho : o.bind tileOfSpace = none) : k.busyAt a n = false := by
  unfold Core.busyAt
  rw [h, ho]

/-- A range that lies in no activation buffer. -/
theorem bufRead_of_space {k : Core} {a n : Nat} {o : Option Space} (h : k.spaceOf a n = o) (ho : o = some .spm ∨ o = none) : k.bufRead a n = false := by
  unfold Core.bufRead
  rw [h]
  obtain rfl | rfl := ho
  · rfl
  · rfl

theorem movable_of_inSpm {k : Core} {a n : Nat} (h : k.inSpm a n = true) : movable k a n = true := by
  unfold movable
  rw [reach_of_inSpm h]

theorem ne_zero_of_inSpm {k : Core} {a n : Nat} (h : k.inSpm a n = true) : n ≠ 0 := by
  rintro rfl
  exact Option.some_ne_none _ ((spaceOf_of_inSpm h).symm.trans (spaceOf_zero k a rfl))

/-- A move noted as in progress. -/
noncomputable def Core.addMove (m : Move) (k : Core) : Core := { k with moves := k.moves ++ [m] }

/-- A TMOV of an admitted form, by its hold and its check of addresses. -/
theorem exec_tmov {s : State} {t : Site} {f : FmtX} (hf : f = { dst := f.dst, src := f.src, len := f.len }) :
    let k := s.core t.core
    let n := ((s.thread t).sreg f.len).toNat
    let a := ((s.thread t).sreg f.src).toNat
    let d := ((s.thread t).sreg f.dst).toNat
    ∀ {b hold : Bool}, (k.busyAt a n || k.busyAt d n || k.bufRead d n || k.heldByMove t.thread false a n || k.heldByMove t.thread true d n) = hold →
    (decide (n % 4 ≠ 0) || decide (a % 4 ≠ 0) || decide (d % 4 ≠ 0) || !movable k a n || !movable k d n || overlap a n d n || false) = b →
    exec (.tmov t f) s = issue s t hold true [(false, .illegal), (decide (n = 0), .empty), (b, .address)]
      (fun u => if k.doubleAt a n = true then s.dataFault t else (u.readCounted t.core a n).modCore t.core fun x =>
        (x.writeLocal d (s.readLocal t.core a n)).addMove { thread := t.thread, src := a, dst := d, len := n }) := by
  intro k n a d b hold hh hb
  subst hh hb
  exact (congrArg (fun g => execTmov t g s) hf).trans rfl

/-- A core whose thread goes on and which counts corrected errors, but for both. -/
theorem core_onward_counted {α : Type} (φ : Core → α) (hc : ∀ k t h ws, φ (Core.countWords k t h ws) = φ k) (s : State) (t : Site) (a n : Nat) :
    φ (((s.onward t).readCounted t.core a n).core t.core) = φ ((s.onward t).core t.core) :=
  (congrArg φ (State.core_modCore_self _ t.core _)).trans (hc ..)

theorem core_onward {α : Type} (φ : Core → α) (ht : ∀ k l, φ { k with threads := l } = φ k) (s : State) (t : Site) : φ ((s.onward t).core t.core) = φ (s.core t.core) :=
  (congrArg φ (State.core_modCore_self s t.core _)).trans (ht ..)

theorem overlap_eq_false {a b n m : Nat} (h : a + n ≤ b ∨ b + m ≤ a) : overlap a n b m = false :=
  Bool.and_eq_false_iff.mpr (h.symm.imp (fun h => decide_eq_false (Nat.not_lt.mpr h)) fun h => decide_eq_false (Nat.not_lt.mpr h))

/-- Settles O18. -/
theorem tmovCopies : Obligations.TmovCopies := by
  intro s t f h hmem hf k n a d hread hwrite
  have hgo {b c e : Bool} (hb : b = false) (hc : c = false) (he : e = false) :
      (b || c || e || k.heldByMove t.thread false a n || k.heldByMove t.thread true d n) = false :=
    Bool.or_eq_false_iff.mpr ⟨Bool.or_eq_false_iff.mpr ⟨Bool.or_eq_false_iff.mpr ⟨Bool.or_eq_false_iff.mpr ⟨hb, hc⟩, he⟩, hread⟩, hwrite⟩
  have hspm (ha : k.inSpm a n = true) (hd : k.inSpm d n = true) :=
    hgo (busyAt_of_space (spaceOf_of_inSpm ha) rfl) (busyAt_of_space (spaceOf_of_inSpm hd) rfl) (bufRead_of_space (spaceOf_of_inSpm hd) (.inl rfl))
  refine ⟨fun ha hd hdouble hn hal hdal hdis => ?_, fun hn => ?_, fun ha hd h1 h2 => ?_, fun m ms hmoves hm hruns => ?_⟩
  · have hchecks := Bool.or_eq_false_iff.mpr ⟨Bool.or_eq_false_iff.mpr ⟨Bool.or_eq_false_iff.mpr ⟨Bool.or_eq_false_iff.mpr ⟨or_ne_eq_false (or_ne_eq_false
      (decide_eq_false (not_not_intro hn)) hal) hdal, congrArg (!·) (movable_of_inSpm ha)⟩, congrArg (!·) (movable_of_inSpm hd)⟩, overlap_eq_false hdis⟩, rfl⟩
    have hkeep {α : Type} (φ : Core → α) (hc : ∀ k t h ws, φ (Core.countWords k t h ws) = φ k) (ht : ∀ k l, φ { k with threads := l } = φ k) :=
      (core_onward_counted φ hc s t a n).trans (core_onward φ ht s t)
    have hwrite := writeLocal_of_inSpm ((hkeep (Core.inSpm · d n) (fun _ _ _ _ => rfl) fun _ _ => rfl).trans hd) (memBytes_length k.mem n a)
    refine ⟨_, ((exec_tmov hf (hspm ha hd) hchecks).trans (issue_onward rfl h (firstFault_pass rfl (firstFault_pass (decide_eq_false (ne_zero_of_inSpm ha)) rfl)) _)).trans (congrArg _ (if_false_eq hdouble)), ?_⟩
    have hu := (State.core_modCore_self ((s.onward t).readCounted t.core a n) t.core fun x =>
      (x.writeLocal d (s.readLocal t.core a n)).addMove { thread := t.thread, src := a, dst := d, len := n }).trans (congrArg (Core.addMove _)
      ((congrArg (Core.writeLocal _ d) (readLocal_of_inSpm ha)).trans hwrite))
    have hmemu := (congrArg Core.mem hu).trans (congrArg (memPut · d _) (hkeep Core.mem (fun _ _ _ _ => rfl) fun _ _ => rfl))
    obtain ⟨hcopy, hout⟩ := memGet_copy (memWf_core hmem t.core) a d n
    exact ⟨(congrArg (Core.thread · t.thread) hu).trans (core_onward_counted (Core.thread · t.thread) (fun _ _ _ _ => rfl) s t a n),
      fun j hj => (congrArg (memGet · (d + j)) hmemu).trans (hcopy j hj), fun x hx => (congrArg (memGet · x) hmemu).trans (hout x hx),
      (congrArg Core.moves hu).trans (congrArg (· ++ _) (hkeep Core.moves (fun _ _ _ _ => rfl) fun _ _ => rfl)), rfl,
      fun c hc => (State.core_modCore_ne _ _ hc).trans ((State.core_modCore_ne _ _ hc).trans (State.core_modCore_ne s _ hc))⟩
  · have hempty {e : Bool} (he : e = true) (x : Bool) : firstFault [(false, .illegal), (e, .empty), (x, .address)] = some .empty := by
      subst he
      obtain _ | _ := x
      · rfl
      · rfl
    exact (exec_tmov hf (hgo (busyAt_of_space (spaceOf_zero k a hn) rfl) (busyAt_of_space (spaceOf_zero k d hn) rfl)
      (bufRead_of_space (spaceOf_zero k d hn) (.inr rfl))) rfl).trans (issue_faults rfl h
        (hempty (decide_eq_true hn) _) _)
  · exact (exec_tmov hf (hspm ha hd) (Bool.or_eq_true_iff.mpr (.inl (Bool.or_eq_true_iff.mpr (.inr (Bool.and_eq_true_iff.mpr
      ⟨decide_eq_true h1, decide_eq_true h2⟩)))))).trans (issue_faults rfl h (firstFault_skip rfl (firstFault_skip (decide_eq_false (ne_zero_of_inSpm ha)) rfl)) _)
  · exact (if_pos hruns).trans (congrArg (fun l => Host.Outcome.next (s.setCore t.core { k with moves := l })) ((congrArg (dropMove t.thread) hmoves).trans (if_pos hm)))

end Sys2Proof.Machine
end

section
/-! PROOFS. A mesh link: sequence numbers, CRC and replay (R145, R157). -/

namespace Sys2Proof.Machine

theorem eq_of_toFin? {n v : Nat} {a : Fin n} (h : toFin? n v = some a) : v = a.val := by
  by_cases hv : v < n
  · exact congrArg Fin.val (Option.some.inj ((dif_pos hv).symm.trans h))
  · exact absurd (h.symm.trans (dif_neg hv)) (Option.some_ne_none a)

theorem eq_some_of_place {m : Option (Fin 512) → Option (Fin 384) → Option RouterId} (hx : ∀ b, m none b = none) (hy : ∀ a, m (some a) none = none)
    (h2 : ∀ a b, m (some a) (some b) = some ⟨a, b⟩) {o : Option (Fin 512)} {p : Option (Fin 384)} {q : RouterId} (h : m o p = some q) :
    o = some q.px ∧ p = some q.py := by
  obtain _ | a := o
  · exact absurd (h.symm.trans (hx p)) (Option.some_ne_none q)
  · obtain _ | b := p
    · exact absurd (h.symm.trans (hy a)) (Option.some_ne_none q)
    · exact Option.some.inj (h.symm.trans (h2 a b)) ▸ ⟨rfl, rfl⟩

theorem eq_of_place {m : Option (Fin 512) → Option (Fin 384) → Option RouterId} (hx : ∀ b, m none b = none) (hy : ∀ a, m (some a) none = none)
    (h2 : ∀ a b, m (some a) (some b) = some ⟨a, b⟩) {q : RouterId} {p : Nat × Nat × Bool}
    (h : (if p.2.2 = true then m (toFin? 512 p.1) (toFin? 384 p.2.1) else none) = some q) : p = (q.px.val, q.py.val, true) := by
  by_cases hp : p.2.2 = true
  · obtain ⟨hx, hy⟩ := eq_some_of_place hx hy h2 ((if_pos hp).symm.trans h)
    exact Prod.ext (eq_of_toFin? hx) (Prod.ext (eq_of_toFin? hy) hp)
  · exact absurd (h.symm.trans (if_neg hp)) (Option.some_ne_none q)

/-- The place that a direction leads to. -/
theorem neighbour_place {r q : RouterId} {d : Fin 4} (h : neighbour r d = some q) :
    (if d = 0 then (r.px.val, r.py.val - 1, decide (0 < r.py.val)) else if d = 1 then (r.px.val + 1, r.py.val, true)
      else if d = 2 then (r.px.val, r.py.val + 1, true) else (r.px.val - 1, r.py.val, decide (0 < r.px.val))) = (q.px.val, q.py.val, true) :=
  eq_of_place (m := fun o p => match o, p with
    | some a, some b => some ⟨a, b⟩
    | _, _ => none) (fun _ => rfl) (fun _ => rfl) (fun _ _ => rfl) h

theorem neighbour_north {r q : RouterId} (h : neighbour r 0 = some q) : q.px = r.px ∧ q.py.val + 1 = r.py.val :=
  have e := neighbour_place h
  ⟨Fin.ext (congrArg Prod.fst e).symm, (congrArg (fun p : Nat × Nat × Bool => p.2.1 + 1) e).symm.trans
    (Nat.sub_add_cancel (of_decide_eq_true (congrArg (fun p : Nat × Nat × Bool => p.2.2) e)))⟩

theorem neighbour_east {r q : RouterId} (h : neighbour r 1 = some q) : q.px.val = r.px.val + 1 ∧ q.py = r.py :=
  have e := neighbour_place h
  ⟨(congrArg Prod.fst e).symm, Fin.ext (congrArg (fun p : Nat × Nat × Bool => p.2.1) e).symm⟩

theorem neighbour_south {r q : RouterId} (h : neighbour r 2 = some q) : q.px = r.px ∧ q.py.val = r.py.val + 1 :=
  have e := neighbour_place h
  ⟨Fin.ext (congrArg Prod.fst e).symm, (congrArg (fun p : Nat × Nat × Bool => p.2.1) e).symm⟩

theorem neighbour_west {r q : RouterId} (h : neighbour r 3 = some q) : q.px.val + 1 = r.px.val ∧ q.py = r.py :=
  have e := neighbour_place h
  ⟨(congrArg (fun p : Nat × Nat × Bool => p.1 + 1) e).symm.trans (Nat.sub_add_cancel (of_decide_eq_true (congrArg (fun p : Nat × Nat × Bool => p.2.2) e))),
    Fin.ext (congrArg (fun p : Nat × Nat × Bool => p.2.1) e).symm⟩

theorem neighbour_ne {r q : RouterId} {d : Fin 4} (h : neighbour r d = some q) : q ≠ r := by
  rintro rfl
  by_cases h0 : d = 0
  · exact Nat.succ_ne_self _ (neighbour_north (h0 ▸ h)).2
  · by_cases h1 : d = 1
    · exact Nat.succ_ne_self _ (neighbour_east (h1 ▸ h)).1.symm
    · by_cases h2 : d = 2
      · exact Nat.succ_ne_self _ (neighbour_south (h2 ▸ h)).2.symm
      · have h3 : ∀ d : Fin 4, d ≠ 0 → d ≠ 1 → d ≠ 2 → d = 3 := by decide
        exact Nat.succ_ne_self _ (neighbour_west (h3 d h0 h1 h2 ▸ h)).1

theorem kfind_kdel_self {κ α : Type} [DecidableEq κ] (m : KMap κ α) (x : κ) : kfind (kdel m x) x = none := by
  induction m with
  | nil => rfl
  | cons p m ih =>
    by_cases h : p.1 = x
    · exact (congrArg (kfind · x) (List.filter_cons_of_neg (fun e => (of_decide_eq_true e : p.1 ≠ x) h))).trans ih
    · exact (congrArg (kfind · x) (List.filter_cons_of_pos (decide_eq_true h))).trans ((if_neg h).trans ih)

/-- What a flit turns at a router is where it goes, never what it carries. -/
theorem State.steer_keeps {α : Type} {φ : Flit → α} (s : State) (r : RouterId) (f : Flit)
    (h : ∀ (f : Flit) m j o x y, φ { f with mcast := m, joined := j, join := o, dstPx := x, dstPy := y } = φ f) : φ (s.steer r f) = φ f := by
  refine ite_keeps φ rfl ?_
  generalize f.join = o
  obtain _ | e := o
  · generalize toFin? 512 f.dstPx = ox
    obtain _ | x := ox
    · rfl
    · generalize toFin? 384 f.dstPy = oy
      obtain _ | y := oy
      · rfl
      · refine ite_keeps φ ?_ rfl
        generalize s.pow.remap.find? (fun p => defaultPos p.1 = ⟨x, y⟩) = op
        obtain _ | p := op
        · rfl
        · exact h f _ _ _ _ _
  · exact ite_keeps φ (h f _ _ _ _ _) rfl

theorem State.router_bumpLink (s : State) (a b r : RouterId) (hi lo : Nat) : (s.bumpLink a b hi lo).router r = s.router r :=
  ite_keeps (State.router · r) rfl rfl

/-- A part of a router that was changed, and of one that was not. -/
theorem State.modRouter_part {α : Type} (φ : Router → α) (s : State) (r : RouterId) (f : Router → Router) :
    φ ((s.modRouter r f).router r) = φ (f (s.router r)) := congrArg φ (s.router_modRouter_self r f)

theorem State.modRouter_part_ne {α : Type} (φ : Router → α) (s : State) {r q : RouterId} (h : q ≠ r) (f : Router → Router) :
    φ ((s.modRouter r f).router q) = φ (s.router q) := congrArg φ (s.router_modRouter_ne f h)

/-- A flit is stood behind an input, as it is steered there. -/
theorem State.enqueue_flit {x : Host.Outcome State Fault Refusal} {s : State} {r q : RouterId} {i : Fin 5} {inp d : Fin 4} {f : Flit} {n : Nat} {fs old : List Flit}
    (hx : x = .next (s.enqueue r i f)) (hqr : q ≠ r) (hi : kget [] (s.router r).inq (i, f.vc) = old) (hl : kget 0 (s.router r).lseqIn inp = n)
    (hw : kget [] (s.router q).wire d = fs) :
    ∃ u g, x = .next u ∧ g.data = f.data ∧ g.vat = f.vat ∧ g.dstAddr = f.dstAddr ∧ kget [] (u.router r).inq (i, f.vc) = old ++ [g] ∧
      kget 0 (u.router r).lseqIn inp = n ∧ kget [] (u.router q).wire d = fs := by
  refine ⟨_, { s.steer r f with age := s.seq, collided := false, served := [] }, hx, s.steer_keeps (φ := Flit.data) r f fun _ _ _ _ _ _ => rfl,
    s.steer_keeps (φ := Flit.vat) r f fun _ _ _ _ _ _ => rfl, s.steer_keeps (φ := Flit.dstAddr) r f fun _ _ _ _ _ _ => rfl, ?_, ?_,
    (congrArg (fun k => kget [] k.wire d) (kget_kset_ne ({} : Router) s.routers _ hqr)).trans hw⟩
  on_goal 2 =>
    refine (congrArg (fun k => kget 0 k.lseqIn inp) (kget_kset_self ({} : Router) s.routers r _)).trans ?_
    exact hl
  rw [← hi, ← s.steer_keeps (φ := Flit.vc) r f fun _ _ _ _ _ _ => rfl]
  refine (congrArg (fun k => kget [] k.inq (i, (s.steer r f).vc)) (kget_kset_self ({} : Router) s.routers r _)).trans ?_
  exact kget_kset_self ..

section
variable {s : State} {r q : RouterId} {inp : Fin 4} {f : Flit} {fs : List Flit} (hn : neighbour r inp = some q) (hw : s.routerWorks r = true)
  (hwire : kget [] (s.router q).wire (inp + 2) = f :: fs)
include hn hw hwire

/-- What a router does with the next flit on its wire, by number and CRC (R157). -/
theorem exec_flitReceive (ok : Bool) :
    let s1 := s.modRouter q fun k => { k with wire := kset k.wire (inp + 2) fs }
    let s2 := s1.modRouter q fun k =>
      { k with fails := kset k.fails (inp + 2) (kget 0 (s.router q).fails (inp + 2) + 1), replayReq := kset k.replayReq (inp + 2) (kget 0 (s.router r).lseqIn inp) }
    exec (.flitReceive r inp ok) s = (if f.lseq ≠ kget 0 (s.router r).lseqIn inp then .next s1
      else if ok = true then .next (s1.acceptFlit q r inp f)
      else if 4 ≤ kget 0 (s.router q).fails (inp + 2) + 1 then .next (s2.retireMeshLink q r (inp + 2)) else .next s2) := by
  show execFlitReceive r inp ok s = _
  unfold execFlitReceive
  rw [hn]
  dsimp only [opposite]
  rw [hwire]
  exact if_false_eq (congrArg (!·) hw)

theorem exec_flitReceive_expected (hby : f.bypass = false) (he : f.lseq = kget 0 (s.router r).lseqIn inp) :
    ∃ u g, exec (.flitReceive r inp true) s = .next u ∧ g.data = f.data ∧ g.vat = f.vat ∧ g.dstAddr = f.dstAddr ∧
      kget [] (u.router r).inq (outOf inp, f.vc) = kget [] (s.router r).inq (outOf inp, f.vc) ++ [g] ∧
      kget 0 (u.router r).lseqIn inp = (f.lseq + 1) % 64 ∧ kget [] (u.router q).wire (inp + 2) = fs := by
  have hqr := neighbour_ne hn
  refine State.enqueue_flit ((exec_flitReceive hn hw hwire true).trans ((if_neg (not_not_intro he)).trans ((if_pos rfl).trans
    (congrArg _ (if_false_eq (congrArg (· && _) hby)))))) hqr ?_ ?_ ?_
  · exact (State.modRouter_part_ne (fun k => kget [] k.inq _) _ hqr.symm _).trans ((State.modRouter_part (fun k => kget [] k.inq _) _ r _).trans
      (s.modRouter_part_ne (fun k => kget [] k.inq _) hqr.symm _))
  · exact (State.modRouter_part_ne (fun k => kget 0 k.lseqIn inp) _ hqr.symm _).trans ((State.modRouter_part (fun k => kget 0 k.lseqIn inp) _ r _).trans
      (kget_kset_self ..))
  · exact (State.modRouter_part (fun k => kget [] k.wire _) _ q _).trans ((State.modRouter_part_ne (fun k => kget [] k.wire _) _ hqr _).trans
      ((s.modRouter_part (fun k => kget [] k.wire _) q _).trans (kget_kset_self ..)))

theorem exec_flitReceive_failing (he : f.lseq = kget 0 (s.router r).lseqIn inp) (h3 : kget 0 (s.router q).fails (inp + 2) < 3) :
    ∃ u, exec (.flitReceive r inp false) s = .next u ∧ kget [] (u.router q).wire (inp + 2) = fs ∧
      kfind (u.router q).replayReq (inp + 2) = some (kget 0 (s.router r).lseqIn inp) ∧ u.router r = s.router r := by
  have hrq := (neighbour_ne hn).symm
  exact ⟨_, (exec_flitReceive hn hw hwire false).trans ((if_neg (not_not_intro he)).trans ((if_neg Bool.false_ne_true).trans
      (if_neg (Nat.not_le.mpr (Nat.succ_lt_succ h3))))),
    (State.modRouter_part (fun k => kget [] k.wire _) _ q _).trans ((s.modRouter_part (fun k => kget [] k.wire _) q _).trans (kget_kset_self ..)),
    (State.modRouter_part (fun k => kfind k.replayReq _) _ q _).trans (kfind_kset_self ..),
    (State.router_modRouter_ne _ _ hrq).trans (s.router_modRouter_ne _ hrq)⟩

end

theorem exec_meshReplay {s : State} {r q : RouterId} {d : Fin 4} {n : Nat} (hreq : kfind (s.router r).replayReq d = some n) (hn : neighbour r d = some q) :
    ∃ u, exec (.meshReplay r d) s = .next u ∧ kfind (u.router r).replayReq d = none ∧
      kget [] (u.router r).wire d = kget [] (s.router r).wire d ++ (kget [] (s.router r).replay d).dropWhile (fun g => g.lseq ≠ n) := by
  show ∃ u, execMeshReplay r d s = _ ∧ _
  unfold execMeshReplay
  dsimp only
  rw [hreq, hn]
  exact ⟨_, rfl, (congrArg (fun k => kfind k.replayReq d) (State.router_bumpLink ..)).trans ((s.modRouter_part (fun k => kfind k.replayReq d) r _).trans (kfind_kdel_self ..)),
    (congrArg (fun k => kget [] k.wire d) (State.router_bumpLink ..)).trans ((s.modRouter_part (fun k => kget [] k.wire d) r _).trans (kget_kset_self ..))⟩

/-- Settles O25. -/
theorem flitLinkProtocol : Obligations.FlitLinkProtocol := by
  intro s r q inp f fs hn hw hwire hby
  exact ⟨fun h => neighbour_north (h ▸ hn), fun h => neighbour_east (h ▸ hn), fun h => neighbour_south (h ▸ hn), fun h => neighbour_west (h ▸ hn),
    exec_flitReceive_expected hn hw hwire hby, fun he ok => (exec_flitReceive hn hw hwire ok).trans (if_pos he),
    exec_flitReceive_failing hn hw hwire, fun n hreq hback => exec_meshReplay hreq hback⟩

end Sys2Proof.Machine
end
